-- ==== Sys2Proof/Word.lean ====
section
/-! DEFINITION. The words of the block (R7): bytes, 16-bit values, the 28-bit request word, and the ten named bytes
of a wire frame (R75). -/

namespace Sys2Proof

/-- One byte. -/
abbrev Byte := BitVec 8

/-- A 16-bit value: a request's parameter, a checksum, the wait counter. -/
abbrev Word16 := BitVec 16

/-- A request word in format REQ28 (R70). -/
abbrev RequestWord := BitVec 28

/-- The op field of a request word (R70, R71). -/
abbrev OpCode := BitVec 4

/-- The ten bytes of a frame in format FRAME80, in transmission order (R75). -/
structure Frame where
  startByte    : Byte
  version      : Byte
  length       : Byte
  command      : Byte
  feedback     : Byte
  paramHigh    : Byte
  paramLow     : Byte
  checksumHigh : Byte
  checksumLow  : Byte
  endByte      : Byte
deriving DecidableEq, Repr, Inhabited

end Sys2Proof
end

