-- ==== Sys2Proof/Config.lean ====
section
/-! DEFINITION. What an implementation fixes (the open parameters of R6) and the free values: what the spec leaves
open, as constants without a body, each applied to the number of the edge at which it is drawn. -/

namespace Sys2Proof.Config

/-- The open parameters of R6, fixed for one machine. UART_LINE_FORMAT is the transport's and no rule reads it. -/
structure Params where
  /-- INIT_SETTLE_UNITS, 0..65535 (R6, D6). -/
  initSettleUnits : Word16
  /-- QUERY_WAIT_UNITS, 0..65535 (R6, D6). -/
  queryWaitUnits  : Word16
  /-- NUM_LINES, at least 1 (R6, D13). -/
  numLines        : Nat
deriving DecidableEq, Repr

/-- The defaults of R6. No statement rests on them (R205, R214). -/
def defaultParams : Params := { initSettleUnits := 500, queryWaitUnits := 50, numLines := 1 }

/-- VOL_DEFAULT, the reset value of `vol_cache` (R6, R20). -/
def volDefault : Byte := 20

/-- FREE VALUE: `op_q` after a reset edge and while idle (R20, R200, S2). -/
opaque freeOpQ : Nat → OpCode

/-- FREE VALUE: `buf` after a reset edge and while idle (R20, R200, S2). -/
opaque freeBuf : Nat → Frame

/-- FREE VALUE: `idx` after the completion of a frame request (R45, S3). -/
opaque freeIdx : Nat → Fin 10

/-- FREE VALUE: `tx_data` while `tx_valid` = 0 (R33, S1). -/
opaque freeTxData : Nat → Byte

/-- FREE VALUE: the level of `rst` at an edge (R190). -/
opaque freeRst : Nat → Bool

/-- FREE VALUE: the level of `req_valid` at an edge (R190). -/
opaque freeReqValid : Nat → Bool

/-- FREE VALUE: the request word on `req_op`, `req_cmd`, `req_p` at an edge (R190). -/
opaque freeRequest : Nat → RequestWord

/-- FREE VALUE: the level of `tx_ready` at an edge (R190). -/
opaque freeTxReady : Nat → Bool

/-- FREE VALUE: the level of `tx_fault` at an edge (R190, U1). -/
opaque freeTxFault : Nat → Bool

/-- FREE VALUE: the level of `rx_avail` at an edge (R57, U5). -/
opaque freeRxAvail : Nat → Bool

/-- FREE VALUE: the level of `unit_tick` at an edge (R186, R190). -/
opaque freeUnitTick : Nat → Bool

/-- FREE VALUE: the levels of `line_in` at an edge, bit i the level of line i (R157, U8). -/
opaque freeLineIn : Nat → Nat

end Sys2Proof.Config
end

