-- ==== Sys2Proof/Syntax.lean ====
section
/-! DEFINITION. The requests (R71), one constructor for each row of the opcode table, with the operands R72 gives each;
fields an op does not use are no operand. Beside them the assembler's source lines (R80, R81). -/

namespace Sys2Proof

/-- A request. The rows 0x0 to 0xA of R71, then the table's two rows of reserved op codes (R73). -/
inductive Instr where
  /-- op 0x0, FRAME c, p (R95): command byte and 16-bit parameter. -/
  | frame (c : Byte) (p : Word16)
  /-- op 0x1, INIT (R111). -/
  | init
  /-- op 0x2, SETVOL v (R112): the requested volume, unsigned 16-bit. -/
  | setvol (v : Word16)
  /-- op 0x3, PLAY t (R113): the 16-bit track number. -/
  | play (t : Word16)
  /-- op 0x4, PLAYF d, n (R114): folder byte and file byte. -/
  | playf (d n : Byte)
  /-- op 0x5, ANNOUNCE t (R115): the 16-bit track number. -/
  | announce (t : Word16)
  /-- op 0x6, PAUSE (R116). -/
  | pause
  /-- op 0x7, RESUME (R117). -/
  | resume
  /-- op 0x8, STOP (R118). -/
  | stop
  /-- op 0x9, SDREADY (R150). -/
  | sdready
  /-- op 0xA, ISPLAYING i (R155): the index of the busy line, unsigned 16-bit. -/
  | isplaying (i : Word16)
  /-- op 0xB, the table's first reserved row (R73, R174). -/
  | reservedB
  /-- ops 0xC to 0xF, the table's second reserved row (R73, R174); the op code itself is the operand. -/
  | reservedHigh (op : OpCode)
deriving DecidableEq, Repr

/-- An assembler source line (R80) or pseudo-instruction (R81), its operands as the numbers written. -/
inductive Asm where
  | frame (c p : Nat)
  | init
  | setvol (v : Nat)
  | play (t : Nat)
  | playf (d n : Nat)
  | announce (t : Nat)
  | pause
  | resume
  | stop
  | sdready
  | isplaying (i : Nat)
  /-- FRAME2 c, h, l (R81). -/
  | frame2 (c h l : Nat)
  /-- QUERY (R81). -/
  | query
deriving DecidableEq, Repr

end Sys2Proof
end

