-- ==== Sys2Proof/WellFormed.lean ====
section
/-! DEFINITION. Well-formedness. An operand's width is its type, so the only check on a request is that the reserved
row 0xC..0xF holds one of those op codes (R73). On a source line: each operand fits its field (R80). -/

namespace Sys2Proof

/-- A request that some request word spells (R71, R73). -/
def Instr.wellFormed : Instr → Bool
  | .frame _ _ => true
  | .init => true
  | .setvol _ => true
  | .play _ => true
  | .playf _ _ => true
  | .announce _ => true
  | .pause => true
  | .resume => true
  | .stop => true
  | .sdready => true
  | .isplaying _ => true
  | .reservedB => true
  | .reservedHigh op => decide (12 ≤ op.toNat)

/-- A source line whose every operand fits its field: `c`, `d`, `n`, `h`, `l` at most 255, `p`, `v`, `t`, `i` at most
65535 (R80). -/
def Asm.wellFormed : Asm → Bool
  | .frame c p => decide (c ≤ 255) && decide (p ≤ 65535)
  | .init => true
  | .setvol v => decide (v ≤ 65535)
  | .play t => decide (t ≤ 65535)
  | .playf d n => decide (d ≤ 255) && decide (n ≤ 255)
  | .announce t => decide (t ≤ 65535)
  | .pause => true
  | .resume => true
  | .stop => true
  | .sdready => true
  | .isplaying i => decide (i ≤ 65535)
  | .frame2 c h l => decide (c ≤ 255) && (decide (h ≤ 255) && decide (l ≤ 255))
  | .query => true

end Sys2Proof
end

