-- ==== Sys2Proof/Decode.lean ====
section
/-! DEFINITION. The request word (R70): its fields, the op code map (R71), the decoder, the encoder (R80) and the
assembler (R80, R81). Every 28-bit word spells a request (R74: one format, one length); a number that is no 28-bit
word is refused by name. -/

namespace Sys2Proof

/-- `{req_op[3:0], req_cmd[7:0], req_p[15:0]}` (R70). -/
def requestWord (op : OpCode) (cmd : Byte) (p : Word16) : RequestWord := op ++ cmd ++ p

/-- Bits [27:24] of a request word (R70). -/
def opField (w : RequestWord) : OpCode := w.extractLsb' 24 4

/-- Bits [23:16] of a request word (R70). -/
def cmdField (w : RequestWord) : Byte := w.extractLsb' 16 8

/-- Bits [15:0] of a request word (R70). -/
def pField (w : RequestWord) : Word16 := w.extractLsb' 0 16

/-- `p[15:8]` (R7, R94). -/
def highByte (p : Word16) : Byte := p.extractLsb' 8 8

/-- `p[7:0]` (R7, R94). -/
def lowByte (p : Word16) : Byte := p.extractLsb' 0 8

/-- The request that the fields `op`, `cmd`, `p` spell (R71, R72, R73). -/
def decodeFields (op : OpCode) (cmd : Byte) (p : Word16) : Instr :=
  match op.toNat with
  | 0x0 => .frame cmd p
  | 0x1 => .init
  | 0x2 => .setvol p
  | 0x3 => .play p
  | 0x4 => .playf (highByte p) (lowByte p)
  | 0x5 => .announce p
  | 0x6 => .pause
  | 0x7 => .resume
  | 0x8 => .stop
  | 0x9 => .sdready
  | 0xA => .isplaying p
  | 0xB => .reservedB
  | _ => .reservedHigh op

/-- The request a 28-bit word spells (R70, R71). -/
def decode (w : RequestWord) : Instr := decodeFields (opField w) (cmdField w) (pField w)

/-- Why a number spells no request. -/
inductive DecodeRefusal where
  /-- The number has a bit above bit 27: a request is exactly one 28-bit word (R70, R74). -/
  | widerThanRequestWord
deriving DecidableEq, Repr

/-- Decoding a number of any size: a 28-bit word is decoded, anything wider is refused by name (R74). -/
def decodeNumber (w : Nat) : Except DecodeRefusal Instr :=
  if w < 2 ^ 28 then .ok (decode (BitVec.ofNat 28 w)) else .error .widerThanRequestWord

/-- What the decoder reads from a table word: `nbits` counts the bits the table gives, bits above them are 0. -/
def decodeTableWord (nbits w : Nat) : Option Instr :=
  match decodeNumber (w % 2 ^ nbits) with
  | .ok i => some i
  | .error _ => none

/-- The op code of a request (R71). -/
def Instr.op : Instr → OpCode
  | .frame _ _ => 0x0
  | .init => 0x1
  | .setvol _ => 0x2
  | .play _ => 0x3
  | .playf _ _ => 0x4
  | .announce _ => 0x5
  | .pause => 0x6
  | .resume => 0x7
  | .stop => 0x8
  | .sdready => 0x9
  | .isplaying _ => 0xA
  | .reservedB => 0xB
  | .reservedHigh op => op

/-- The request word of a request, unused fields 0 (R80). -/
def encode : Instr → RequestWord
  | .frame c p => requestWord 0x0 c p
  | .init => 0x1000000
  | .setvol v => requestWord 0x2 0x00 v
  | .play t => requestWord 0x3 0x00 t
  | .playf d n => requestWord 0x4 0x00 (d ++ n)
  | .announce t => requestWord 0x5 0x00 t
  | .pause => 0x6000000
  | .resume => 0x7000000
  | .stop => 0x8000000
  | .sdready => 0x9000000
  | .isplaying i => requestWord 0xA 0x00 i
  | .reservedB => 0xB000000
  | .reservedHigh op => requestWord op 0x00 0x0000

/-- A byte operand; one above 255 does not fit (R80). -/
def asmByte (n : Nat) : Option Byte := if n ≤ 255 then some (BitVec.ofNat 8 n) else none

/-- A 16-bit operand; one above 65535 does not fit (R80). -/
def asmWord (n : Nat) : Option Word16 := if n ≤ 65535 then some (BitVec.ofNat 16 n) else none

/-- The request a source line names; none where an operand does not fit its field (R80). FRAME2 c, h, l is
FRAME c, (h * 256 + l) and QUERY is FRAME 0x3F, 0 (R81). -/
def Asm.request : Asm → Option Instr
  | .frame c p => (asmByte c).bind fun c => (asmWord p).map fun p => .frame c p
  | .init => some .init
  | .setvol v => (asmWord v).map .setvol
  | .play t => (asmWord t).map .play
  | .playf d n => (asmByte d).bind fun d => (asmByte n).map fun n => .playf d n
  | .announce t => (asmWord t).map .announce
  | .pause => some .pause
  | .resume => some .resume
  | .stop => some .stop
  | .sdready => some .sdready
  | .isplaying i => (asmWord i).map .isplaying
  | .frame2 c h l =>
    (asmByte h).bind fun _ => (asmByte l).bind fun _ => (asmByte c).bind fun c =>
      (asmWord (h * 256 + l)).map fun p => .frame c p
  | .query => some (.frame 0x3F 0x0000)

/-- The request word a source line assembles to (R80). -/
def assemble (a : Asm) : Option RequestWord := a.request.map encode

/-- A source line from its mnemonic and its operands, in the order R80 and R81 write them. -/
def Asm.ofTokens (mnemonic : String) (operands : List Nat) : Option Asm :=
  match mnemonic, operands with
  | "FRAME", [c, p] => some (.frame c p)
  | "INIT", [] => some .init
  | "SETVOL", [v] => some (.setvol v)
  | "PLAY", [t] => some (.play t)
  | "PLAYF", [d, n] => some (.playf d n)
  | "ANNOUNCE", [t] => some (.announce t)
  | "PAUSE", [] => some .pause
  | "RESUME", [] => some .resume
  | "STOP", [] => some .stop
  | "SDREADY", [] => some .sdready
  | "ISPLAYING", [i] => some (.isplaying i)
  | "FRAME2", [c, h, l] => some (.frame2 c h l)
  | "QUERY", [] => some .query
  | _, _ => none

/-! ## Source text (R80: one request per line, `MNEMONIC operands`, numbers in decimal or `0x` hexadecimal) -/

/-- The value of a digit, hexadecimal digits in either case (log 14). -/
def digitValue (c : Char) : Option Nat :=
  if 48 ≤ c.toNat ∧ c.toNat ≤ 57 then some (c.toNat - 48)
  else if 65 ≤ c.toNat ∧ c.toNat ≤ 70 then some (c.toNat - 55)
  else if 97 ≤ c.toNat ∧ c.toNat ≤ 102 then some (c.toNat - 87)
  else none

/-- The digits of a numeral after the value `v` of those before them. -/
def numeralFrom (base v : Nat) : List Char → Option Nat
  | [] => some v
  | c :: cs => (digitValue c).bind fun d => if d < base then numeralFrom base (v * base + d) cs else none

/-- A numeral, decimal or `0x` hexadecimal. -/
def numeral : List Char → Option Nat
  | [] => none
  | [c] => numeralFrom 10 0 [c]
  | [c, d] => numeralFrom 10 0 [c, d]
  | c :: d :: e :: cs => if c = '0' ∧ d = 'x' then numeralFrom 16 0 (e :: cs) else numeralFrom 10 0 (c :: d :: e :: cs)

/-- A text without the blanks at its ends. -/
def trimBlanks (l : List Char) : List Char := ((l.dropWhile (· = ' ')).reverse.dropWhile (· = ' ')).reverse

/-- The parts of a text between commas. -/
def splitAtCommas : List Char → List (List Char)
  | [] => [[]]
  | c :: cs =>
    if c = ',' then [] :: splitAtCommas cs
    else
      match splitAtCommas cs with
      | [] => [[c]]
      | w :: ws => (c :: w) :: ws

/-- Every part as a numeral. -/
def numerals : List (List Char) → Option (List Nat)
  | [] => some []
  | w :: ws => (numeral (trimBlanks w)).bind fun n => (numerals ws).map (n :: ·)

/-- The source line a text spells: the mnemonic, blanks, the operands separated by commas. -/
def Asm.ofText (text : List Char) : Option Asm :=
  let line := trimBlanks text
  let operands := trimBlanks (line.dropWhile (· ≠ ' '))
  let mnemonic := String.ofList (line.takeWhile (· ≠ ' '))
  match operands with
  | [] => Asm.ofTokens mnemonic []
  | _ :: _ => (numerals (splitAtCommas operands)).bind (Asm.ofTokens mnemonic)

/-- The request word a line of text assembles to (R80). -/
def assembleText (text : String) : Option RequestWord := (Asm.ofText text.toList).bind assemble

end Sys2Proof
end

