-- ==== Sys2Proof/Machine/State.lean ====
section
/-! DEFINITION. The state of the machine: the registers of R20, the parameters of R6, the port levels of R22 that the
environment drives, and the model's own bookkeeping of that environment. The state after reset (R200). Plain data. -/

namespace Sys2Proof.Machine

/-- The sequencing state `st` (R20, R23); the encodings 0, 1, 2 are not observable and 3 never occurs. -/
inductive Phase where
  /-- No request is in progress. -/
  | idle
  /-- Byte `idx` of the frame in `buf` is being offered. -/
  | send
  /-- The frame has been accepted whole and the block is counting time units. -/
  | wait
deriving DecidableEq, Repr

/-- The response codes of R170. The codes 5..7 are never written (S4). -/
inductive RespErr where
  | ok
  | illegal
  | notInit
  | badLine
  | txFault
deriving DecidableEq, Repr

/-- The levels on the input ports of R22 at one edge. -/
structure Ports where
  rst      : Bool
  reqValid : Bool
  reqOp    : OpCode
  reqCmd   : Byte
  reqP     : Word16
  txReady  : Bool
  txFault  : Bool
  rxAvail  : Bool
  unitTick : Bool
  /-- `line_in`: bit i is the level of line i; bits at and above NUM_LINES name no port and are never read (R156). -/
  lineIn   : Nat
deriving DecidableEq, Repr

/-- All inputs at level 0: nothing is presented. -/
def Ports.quiet : Ports :=
  { rst := false, reqValid := false, reqOp := 0, reqCmd := 0, reqP := 0, txReady := false, txFault := false,
    rxAvail := false, unitTick := false, lineIn := 0 }

/-- The whole machine. -/
structure State where
  /-- R20, R27: the transport has been bound by an INIT. -/
  bound     : Bool
  /-- R20, R28: the last commanded volume. -/
  volCache  : Byte
  /-- R20, R23. -/
  st        : Phase
  /-- R20, R24: the op code of the request in progress. -/
  opQ       : OpCode
  /-- R20, R25: the frame being sent. -/
  buf       : Frame
  /-- R20, R23: which byte of `buf` is offered; its legal values 0..9 are its type. -/
  idx       : Fin 10
  /-- R20, R26: `unit_tick` pulses counted in WAIT. -/
  cnt       : Word16
  /-- R20, R29: the code of the last completion. -/
  respErr   : RespErr
  /-- R20, R29: the Boolean result of the last completion. -/
  respBool  : Bool
  /-- R20, R31: the last edge completed a request. -/
  done      : Bool
  /-- R6: the parameters of this machine; no step writes them. -/
  params    : Config.Params
  /-- R22: the input levels that the next edge samples. -/
  port      : Ports
  /-- The model's own: the input levels of the edges after that, nearest first; beyond them the inputs are free. -/
  env       : List Ports
  /-- The model's own: how many edges have passed, the index of the free values. -/
  edgeCount : Nat
  /-- The model's own: the bytes the transport has accepted, oldest first (R54). -/
  received  : List Byte
deriving DecidableEq, Repr

/-- Why a step stops with a fault. Both are safe: each stops only where R40 to R44 give no effect, in states that no
run reaches (R45). -/
inductive Fault where
  /-- Raised by a `unit_tick` in WAIT under a request that has no wait: R43 gives INIT and SDREADY alone a finish.
  Safe: R45 says WAIT is never entered by another request. -/
  | waitWithoutDelay
  /-- Raised by a `unit_tick` in WAIT with `cnt + 1` above the length of the wait: R43 speaks of `cnt + 1` below it and
  equal to it. Safe: R45 says `cnt` stays below it. -/
  | waitPastEnd
deriving DecidableEq, Repr

/-- Why an instruction has no meaning. -/
inductive Refusal where
  /-- Raised by an arm of exec whose instruction has no meaning yet; no arm raises it. Safe: nothing is claimed. -/
  | notModelled (mnemonic : String)
deriving DecidableEq, Repr

/-- The outcome of one edge. -/
abbrev Result := Host.Outcome State Fault Refusal

/-- The state right after reset (R200), a machine with the default parameters (R6). `op_q` and `buf`, which reset
leaves at any value, are zero here (DESIGN CHOICE, log 4); the port levels are all 0 and the bookkeeping is empty
(DESIGN CHOICE, log 2, 5, 8). -/
def State.reset : State :=
  { bound := false
    volCache := Config.volDefault
    st := .idle
    opQ := 0
    buf := ⟨0, 0, 0, 0, 0, 0, 0, 0, 0, 0⟩
    idx := 0
    cnt := 0
    respErr := .ok
    respBool := false
    done := false
    params := Config.defaultParams
    port := Ports.quiet
    env := []
    edgeCount := 0
    received := [] }

end Sys2Proof.Machine
end

