-- ==== Sys2Proof/Machine/Codec.lean ====
section
/-! DEFINITION. The frame codec (40_frame_codec.md) and the wire frame (30_encoding.md section 2 and 5): the checksum,
BuildFrame, the order of the bytes, the receiver's check and the frame column of the opcode table. Pure functions: the
codec reads and writes no register (R92, C7). -/

namespace Sys2Proof.Machine

/-- START_BYTE (R6). -/
def startByte : Byte := 0x7E

/-- VERSION_BYTE (R6). -/
def versionByte : Byte := 0xFF

/-- LENGTH_BYTE (R6, C4). -/
def lengthByte : Byte := 0x06

/-- FEEDBACK_BYTE (R6). -/
def feedbackByte : Byte := 0x00

/-- END_BYTE (R6). -/
def endByte : Byte := 0xEF

/-- `S`: the exact sum of frame bytes 1 to 6 (R90, C2). -/
def sumBytes (cmd h l : Byte) : Nat :=
  versionByte.toNat + lengthByte.toNat + cmd.toNat + feedbackByte.toNat + h.toNat + l.toNat

/-- `k`: the 16-bit two's-complement negation of the sum (R90). -/
def checksum (cmd h l : Byte) : Word16 := BitVec.ofNat 16 (65536 - sumBytes cmd h l)

/-- `BuildFrame(cmd, h, l)` (R92). -/
def buildFrame (cmd h l : Byte) : Frame :=
  { startByte := startByte
    version := versionByte
    length := lengthByte
    command := cmd
    feedback := feedbackByte
    paramHigh := h
    paramLow := l
    checksumHigh := highByte (checksum cmd h l)
    checksumLow := lowByte (checksum cmd h l)
    endByte := endByte }

/-- `BuildFrame16(cmd, p)`: the 16-bit entry point (R94). -/
def buildFrame16 (cmd : Byte) (p : Word16) : Frame := buildFrame cmd (highByte p) (lowByte p)

/-- The bytes of a frame in transmission order, byte 0 first (R53, R75). -/
def frameBytes (f : Frame) : List Byte :=
  [f.startByte, f.version, f.length, f.command, f.feedback, f.paramHigh, f.paramLow, f.checksumHigh, f.checksumLow,
    f.endByte]

/-- `f[i]` (R75). -/
def frameByte (f : Frame) : Fin 10 → Byte
  | 0 => f.startByte
  | 1 => f.version
  | 2 => f.length
  | 3 => f.command
  | 4 => f.feedback
  | 5 => f.paramHigh
  | 6 => f.paramLow
  | 7 => f.checksumHigh
  | 8 => f.checksumLow
  | 9 => f.endByte

/-- The 80-bit view of a frame, the first-transmitted byte the most significant (R76). -/
def frameView (f : Frame) : BitVec 80 :=
  f.startByte ++ f.version ++ f.length ++ f.command ++ f.feedback ++ f.paramHigh ++ f.paramLow ++ f.checksumHigh ++
    f.checksumLow ++ f.endByte

/-- The left side of the checksum law, before the remainder by 65536 (R93). -/
def lawSum (f : Frame) : Nat :=
  f.version.toNat + f.length.toNat + f.command.toNat + f.feedback.toNat + f.paramHigh.toNat + f.paramLow.toNat +
    f.checksumHigh.toNat * 256 + f.checksumLow.toNat

/-- The check a receiver applies (R82). -/
def wellFormedFrame (g : Frame) : Bool :=
  decide (g.startByte = 0x7E) && (decide (g.version = 0xFF) && (decide (g.length = 0x06) &&
    (decide (g.feedback = 0x00) && (decide (g.endByte = 0xEF) && decide (lawSum g % 65536 = 0)))))

/-- Ten bytes in transmission order as a frame; any other number of bytes is no frame (R74). -/
def frameOfBytes : List Byte → Option Frame
  | [b0, b1, b2, b3, b4, b5, b6, b7, b8, b9] => some ⟨b0, b1, b2, b3, b4, b5, b6, b7, b8, b9⟩
  | _ => none

/-- What a receiver takes from ten bytes: a frame, if they pass its check (R82). -/
def receiveFrame (bytes : List Byte) : Option Frame :=
  match frameOfBytes bytes with
  | some g => if wellFormedFrame g then some g else none
  | none => none

/-- The op code of the operation a command byte names (R77, R82); with any other command byte a frame could have come
only from FRAME (R78). -/
def operationOfCommand (c : Byte) : Option OpCode :=
  match c.toNat with
  | 0x0C => some 0x1
  | 0x06 => some 0x2
  | 0x03 => some 0x3
  | 0x0F => some 0x4
  | 0x13 => some 0x5
  | 0x0E => some 0x6
  | 0x0D => some 0x7
  | 0x16 => some 0x8
  | 0x3F => some 0x9
  | _ => none

/-- One row of the frame column of the opcode table: which frames a request of this op can emit (R76). -/
structure FrameRow where
  op    : OpCode
  value : BitVec 80
  mask  : BitVec 80
deriving DecidableEq, Repr

/-- The frame column of the opcode table. ISPLAYING and the reserved rows have no frame. -/
def frameRows : List FrameRow :=
  [⟨0x0, 0x7EFF06000000000000EF, 0xFFFFFF00FF00000000FF⟩,
   ⟨0x1, 0x7EFF060C000000FEEFEF, 0xFFFFFFFFFFFFFFFFFFFF⟩,
   ⟨0x2, 0x7EFF06060000000000EF, 0xFFFFFFFFFFFF000000FF⟩,
   ⟨0x3, 0x7EFF06030000000000EF, 0xFFFFFFFFFF00000000FF⟩,
   ⟨0x4, 0x7EFF060F0000000000EF, 0xFFFFFFFFFF00000000FF⟩,
   ⟨0x5, 0x7EFF06130000000000EF, 0xFFFFFFFFFF00000000FF⟩,
   ⟨0x6, 0x7EFF060E000000FEEDEF, 0xFFFFFFFFFFFFFFFFFFFF⟩,
   ⟨0x7, 0x7EFF060D000000FEEEEF, 0xFFFFFFFFFFFFFFFFFFFF⟩,
   ⟨0x8, 0x7EFF0616000000FEE5EF, 0xFFFFFFFFFFFFFFFFFFFF⟩,
   ⟨0x9, 0x7EFF063F000000FEBCEF, 0xFFFFFFFFFFFFFFFFFFFF⟩]

/-- The frame `f` lies under a row: it has the row's bits where the mask is 1 (R76). -/
def FrameRow.admits (r : FrameRow) (f : Frame) : Bool := decide (frameView f &&& r.mask = r.value)

end Sys2Proof.Machine
end

