-- ==== Sys2Proof/Machine/Operands.lean ====
section
/-! DEFINITION. Operand forms: the frame operands of every frame-emitting request (R79), the volume clamp (R119), and
the selection of a busy line (R156, R157). -/

namespace Sys2Proof.Machine

/-- The frame operands `(cmd, h, l)` (R79). -/
structure FrameOperands where
  cmd : Byte
  h   : Byte
  l   : Byte
deriving DecidableEq, Repr

/-- `BuildFrame` of frame operands (R79, R97). -/
def FrameOperands.frame (o : FrameOperands) : Frame := buildFrame o.cmd o.h o.l

/-- VOL_MAX (R6). -/
def volMax : Nat := 30

/-- `clampVol(v) = min(v, 30)` for the 16-bit unsigned input (R119). -/
def clampVol (v : Word16) : Byte := BitVec.ofNat 8 (min v.toNat volMax)

/-- FRAME: `c`, `p[15:8]`, `p[7:0]` (R79). -/
def frameOperands (c : Byte) (p : Word16) : FrameOperands := ⟨c, highByte p, lowByte p⟩

/-- INIT (R77, R79). -/
def initOperands : FrameOperands := ⟨0x0C, 0x00, 0x00⟩

/-- SETVOL: a zero high byte and the clamped volume (R77, R79). -/
def setvolOperands (v : Word16) : FrameOperands := ⟨0x06, 0x00, clampVol v⟩

/-- PLAY (R77, R79). -/
def playOperands (t : Word16) : FrameOperands := ⟨0x03, highByte t, lowByte t⟩

/-- PLAYF: folder byte high, file byte low (R77, R79). -/
def playfOperands (d n : Byte) : FrameOperands := ⟨0x0F, d, n⟩

/-- ANNOUNCE (R77, R79). -/
def announceOperands (t : Word16) : FrameOperands := ⟨0x13, highByte t, lowByte t⟩

/-- PAUSE (R77, R79). -/
def pauseOperands : FrameOperands := ⟨0x0E, 0x00, 0x00⟩

/-- RESUME (R77, R79). -/
def resumeOperands : FrameOperands := ⟨0x0D, 0x00, 0x00⟩

/-- STOP (R77, R79). -/
def stopOperands : FrameOperands := ⟨0x16, 0x00, 0x00⟩

/-- SDREADY (R77, R79). -/
def sdreadyOperands : FrameOperands := ⟨0x3F, 0x00, 0x00⟩

/-- The table of R79: the frame operands of each frame-emitting request; ISPLAYING and the reserved ops have none. -/
def operandsOf : Instr → Option FrameOperands
  | .frame c p => some (frameOperands c p)
  | .init => some initOperands
  | .setvol v => some (setvolOperands v)
  | .play t => some (playOperands t)
  | .playf d n => some (playfOperands d n)
  | .announce t => some (announceOperands t)
  | .pause => some pauseOperands
  | .resume => some resumeOperands
  | .stop => some stopOperands
  | .sdready => some sdreadyOperands
  | .isplaying _ => none
  | .reservedB => none
  | .reservedHigh _ => none

/-- An index names one of the NUM_LINES inputs (R156). -/
def namesLine (prm : Config.Params) (i : Word16) : Bool := decide (i.toNat < prm.numLines)

/-- `Line(i)`: the sampled level of `line_in[i]` (R157). -/
def lineLevel (lines : Nat) (i : Word16) : Bool := lines.testBit i.toNat

end Sys2Proof.Machine
end

