-- ==== Sys2Proof/Machine/Flags.lean ====
section
/-! DEFINITION. The status a host can read. The block has no condition codes (R30): its status bits are the response
registers and `done`, loaded by a completion (R171), and the outputs that are functions of the registers and `rst`
(R22, R31 to R33). -/

namespace Sys2Proof.Machine

/-- The numbers of the response codes (R170, D24). -/
def RespErr.code : RespErr → BitVec 3
  | .ok => 0
  | .illegal => 1
  | .notInit => 2
  | .badLine => 3
  | .txFault => 4

/-- At every edge `done` is loaded with 0 unless the edge completes a request (R31). -/
def State.clearDone (s : State) : State := { s with done := false }

/-- `complete(e, b)` (R171). -/
def complete (e : RespErr) (b : Bool) (s : State) : State :=
  { s with respErr := e, respBool := b, st := .idle, done := true }

/-- `req_ready` (R32). -/
def reqReady (s : State) : Bool := decide (s.st = .idle) && !s.port.rst

/-- `tx_valid` (R33). -/
def txValid (s : State) : Bool := decide (s.st = .send) && !s.port.rst

/-- `tx_data` (R33): the offered byte; a free value while none is offered (S1). -/
def txData (s : State) : Byte := if txValid s then frameByte s.buf s.idx else Config.freeTxData s.edgeCount

/-- The output ports of R22. -/
structure Outputs where
  reqReady : Bool
  txValid  : Bool
  txData   : Byte
  done     : Bool
  respErr  : BitVec 3
  respBool : Bool
  volQ     : Byte
deriving DecidableEq, Repr

/-- The output levels in a state (R22, R31 to R33). -/
def outputs (s : State) : Outputs :=
  { reqReady := reqReady s
    txValid := txValid s
    txData := txData s
    done := s.done
    respErr := s.respErr.code
    respBool := s.respBool
    volQ := s.volCache }

end Sys2Proof.Machine
end

