-- ==== Sys2Proof/Machine/Ops.lean ====
section
/-! DEFINITION. The shared operations of the edges: raising an error, starting a frame, sending a byte, waiting, the
edges that perform no request, and the environment that drives the ports. -/

namespace Sys2Proof.Machine

/-- `raise E` (R8): an error is a completion with its code and `resp_bool` = 0. It saves nothing, changes no mode and
jumps nowhere (R172), so there is no return from it (R180). -/
def raise (e : RespErr) (s : State) : State := complete e false s

/-- `bound <- 1` (R27, R40). -/
def State.bindTransport (s : State) : State := { s with bound := true }

/-- `vol_cache <- vol` (R28, R40). -/
def State.cacheVolume (vol : Byte) (s : State) : State := { s with volCache := vol }

/-- The acceptance of a frame request (R40 step 4): the frame is latched whole, the first byte is offered next. -/
def startFrame (op : OpCode) (o : FrameOperands) (s : State) : State :=
  { s with buf := o.frame, idx := 0, opQ := op, st := .send }

/-- The acceptance of every frame request but INIT: its bound test (R110, R175), then the frame. -/
def sendCommand (op : OpCode) (o : FrameOperands) (s : State) : State :=
  if s.bound then startFrame op o s else raise .notInit s

/-- `op_q`, `buf` and `idx` once no frame is in progress: any value (R45, S2, S3), a free draw each. -/
def State.releaseSender (s : State) : State :=
  { s with opQ := Config.freeOpQ s.edgeCount, buf := Config.freeBuf s.edgeCount, idx := Config.freeIdx s.edgeCount }

/-- The completion of a request whose frame was started (R171 at the edges of R41 to R43). -/
def completeFrame (e : RespErr) (b : Bool) (s : State) : State := complete e b s.releaseSender

/-- The transport accepts the offered byte (R54). -/
def State.transferByte (s : State) : State := { s with received := s.received ++ [frameByte s.buf s.idx] }

/-- `idx <- idx + 1` (R41). -/
def State.nextByte (s : State) : State := { s with idx := s.idx + 1 }

/-- An edge in SEND (R41): a fault wins over `tx_ready` and abandons the frame (R173); an accepted byte moves to the
next one or, at byte 9, does what follows the frame (R42); a stall changes nothing. -/
def sendEdge (afterFrame : State → State) (s : State) : State :=
  if s.port.txFault then completeFrame .txFault false s
  else if s.port.txReady then
    if s.idx.val < 9 then s.transferByte.nextByte else afterFrame s.transferByte
  else s

/-- `cnt <- 0`, `st <- WAIT` (R42). -/
def State.enterWait (s : State) : State := { s with cnt := 0, st := .wait }

/-- What follows the frame of a request with a wait of `n` units: at `n` = 0 the wait finishes at once (R42). -/
def beginWait (n : Word16) (finish : State → State) (s : State) : State :=
  if n.toNat = 0 then finish s else s.enterWait

/-- `cnt <- cnt + 1` (R43). -/
def State.countTick (s : State) : State := { s with cnt := s.cnt + 1 }

/-- An edge in WAIT of a request with a wait of `n` units (R43); `cnt + 1` is exact (R7). Past the end R43 gives no
effect (R45: no run is there), so the machine stops by name. -/
def waitEdge (n : Word16) (finish : State → State) (s : State) : Result :=
  if s.port.unitTick then
    if s.cnt.toNat + 1 < n.toNat then .next s.countTick
    else if s.cnt.toNat + 1 = n.toNat then .next (finish s)
    else .fault .waitPastEnd
  else .next s

/-- An edge in WAIT under a request that has no wait: no run is there (R45), R43 keeps the state without a tick and
gives no finish with one. -/
def waitEdgeWithoutDelay (s : State) : Result :=
  if s.port.unitTick then .fault .waitWithoutDelay else .next s

/-- One edge at which a request is performed, by `st` (R40 to R43): its acceptance when idle, one handshake while its
frame is sent, one look at the time base while it waits. `done` is loaded with 0 unless the edge completes (R31). -/
def performRequest (accept : State → State) (afterFrame : State → State) (waiting : State → Result) (s : State) :
    Result :=
  match s.st with
  | .idle => .next (accept s.clearDone)
  | .send => .next (sendEdge afterFrame s.clearDone)
  | .wait => waiting s.clearDone

/-- A reset edge (R200): every register takes its reset value whatever the inputs; `op_q` and `buf` take any value. -/
def resetEdge (s : State) : State :=
  { s with
    bound := false
    volCache := Config.volDefault
    st := .idle
    opQ := Config.freeOpQ s.edgeCount
    buf := Config.freeBuf s.edgeCount
    idx := 0
    cnt := 0
    respErr := .ok
    respBool := false
    done := false }

/-- An idle edge (R44): nothing changes but `done <- 0`. -/
def idleEdge (s : State) : State := s.clearDone

/-- The request word the host presents (R70). -/
def Ports.word (p : Ports) : RequestWord := requestWord p.reqOp p.reqCmd p.reqP

/-- The request presented on the ports (R40). -/
def presented (s : State) : Instr := decode s.port.word

/-- The request in progress, as `op_q` names it (R24). Its operands are no longer held and are not read after
acceptance (R25), so they are given as 0. -/
def inProgress (s : State) : Instr := decodeFields s.opQ 0 0

/-- Input levels the environment is free to drive at an edge (R190). -/
def Ports.free (n : Nat) : Ports :=
  { rst := Config.freeRst n
    reqValid := Config.freeReqValid n
    reqOp := opField (Config.freeRequest n)
    reqCmd := cmdField (Config.freeRequest n)
    reqP := pField (Config.freeRequest n)
    txReady := Config.freeTxReady n
    txFault := Config.freeTxFault n
    rxAvail := Config.freeRxAvail n
    unitTick := Config.freeUnitTick n
    lineIn := Config.freeLineIn n }

/-- After an edge the environment drives the next levels: those listed in `env`, then free ones. -/
def advance (s : State) : State :=
  match s.env with
  | [] => { s with port := Ports.free s.edgeCount, edgeCount := s.edgeCount + 1 }
  | p :: ps => { s with port := p, env := ps, edgeCount := s.edgeCount + 1 }

/-- The same registers under other input levels. -/
def State.withPort (p : Ports) (s : State) : State := { s with port := p }

/-- The host presents the request word `w` to an idle block at the next edge, `rst` low (R32, R70). -/
def presentRequest (w : RequestWord) (s : State) : State :=
  { s with
    st := .idle
    port := { s.port with rst := false, reqValid := true, reqOp := opField w, reqCmd := cmdField w, reqP := pField w } }

end Sys2Proof.Machine
end

