-- ==== Sys2Proof/Machine/Framing.lean ====
section
/-! DEFINITION. The meaning of FRAME (40_frame_codec.md R95) and of the frame commands (41_commands.md R110 to R118). -/

namespace Sys2Proof.Machine

/-- FRAME c, p (R95): no effect beyond the frame (R81). -/
def execFrame (c : Byte) (p : Word16) (s : State) : Result :=
  performRequest (sendCommand 0x0 (frameOperands c p)) (completeFrame .ok false) waitEdgeWithoutDelay s

/-- INIT (R111): `bound <- 1` at acceptance, the reset frame, the settle wait, then OK. It needs no `bound`. -/
def execInit (s : State) : Result :=
  performRequest (fun s => startFrame 0x1 initOperands s.bindTransport)
    (beginWait s.params.initSettleUnits (completeFrame .ok false))
    (waitEdge s.params.initSettleUnits (completeFrame .ok false)) s

/-- SETVOL v (R112): the bound test, the clamped volume into `vol_cache` at acceptance, then the frame that sends it. -/
def execSetvol (v : Word16) (s : State) : Result :=
  performRequest
    (fun s => if s.bound then startFrame 0x2 (setvolOperands v) (s.cacheVolume (clampVol v)) else raise .notInit s)
    (completeFrame .ok false) waitEdgeWithoutDelay s

/-- PLAY t (R113). -/
def execPlay (t : Word16) (s : State) : Result :=
  performRequest (sendCommand 0x3 (playOperands t)) (completeFrame .ok false) waitEdgeWithoutDelay s

/-- PLAYF d, n (R114). -/
def execPlayf (d n : Byte) (s : State) : Result :=
  performRequest (sendCommand 0x4 (playfOperands d n)) (completeFrame .ok false) waitEdgeWithoutDelay s

/-- ANNOUNCE t (R115). -/
def execAnnounce (t : Word16) (s : State) : Result :=
  performRequest (sendCommand 0x5 (announceOperands t)) (completeFrame .ok false) waitEdgeWithoutDelay s

/-- PAUSE (R116). -/
def execPause (s : State) : Result :=
  performRequest (sendCommand 0x6 pauseOperands) (completeFrame .ok false) waitEdgeWithoutDelay s

/-- RESUME (R117). -/
def execResume (s : State) : Result :=
  performRequest (sendCommand 0x7 resumeOperands) (completeFrame .ok false) waitEdgeWithoutDelay s

/-- STOP (R118). -/
def execStop (s : State) : Result :=
  performRequest (sendCommand 0x8 stopOperands) (completeFrame .ok false) waitEdgeWithoutDelay s

end Sys2Proof.Machine
end

