-- ==== Sys2Proof/Machine/Queries.lean ====
section
/-! DEFINITION. The meaning of the status queries (42_status.md R150 to R157) and of the reserved op codes (R174). -/

namespace Sys2Proof.Machine

/-- The end of SDREADY's wait: `rx_avail` is sampled at this edge and is the result (R43, R151). -/
def finishSdready (s : State) : State := completeFrame .ok s.port.rxAvail s

/-- SDREADY (R150): the query frame, the query wait, one sample of `rx_avail`. -/
def execSdready (s : State) : Result :=
  performRequest (sendCommand 0x9 sdreadyOperands) (beginWait s.params.queryWaitUnits finishSdready)
    (waitEdge s.params.queryWaitUnits finishSdready) s

/-- ISPLAYING i (R155): an index that names no line completes with BAD_LINE (R156, R176); a named line is sampled at
the acceptance edge and reads low while playing (R157). It uses no transport and needs no `bound`. -/
def acceptIsplaying (i : Word16) (s : State) : State :=
  if namesLine s.params i then complete .ok (!lineLevel s.port.lineIn i) s else raise .badLine s

/-- ISPLAYING i (R155). It completes at its acceptance edge, so it is never in progress; for states that no run
reaches R41 and R42 treat its op code as one without a wait. -/
def execIsplaying (i : Word16) (s : State) : Result :=
  performRequest (acceptIsplaying i) (completeFrame .ok false) waitEdgeWithoutDelay s

/-- The reserved op code 0xB: ILLEGAL at the acceptance edge (R174). -/
def execReservedB (s : State) : Result :=
  performRequest (raise .illegal) (completeFrame .ok false) waitEdgeWithoutDelay s

/-- The reserved op codes 0xC to 0xF: ILLEGAL at the acceptance edge (R174); which one it is has no effect (R73). -/
def execReservedHigh (_op : OpCode) (s : State) : Result :=
  performRequest (raise .illegal) (completeFrame .ok false) waitEdgeWithoutDelay s

end Sys2Proof.Machine
end

