-- ==== Sys2Proof/Machine/Dispatch.lean ====
section
/-! DEFINITION. One arm per request: one edge at which it is performed. -/

namespace Sys2Proof.Machine

def exec (i : Instr) (s : State) : Host.Outcome State Fault Refusal :=
  match i with
  | .frame c p => Sys2Proof.Machine.execFrame c p s
  | .init => Sys2Proof.Machine.execInit s
  | .setvol v => Sys2Proof.Machine.execSetvol v s
  | .play t => Sys2Proof.Machine.execPlay t s
  | .playf d n => Sys2Proof.Machine.execPlayf d n s
  | .announce t => Sys2Proof.Machine.execAnnounce t s
  | .pause => Sys2Proof.Machine.execPause s
  | .resume => Sys2Proof.Machine.execResume s
  | .stop => Sys2Proof.Machine.execStop s
  | .sdready => Sys2Proof.Machine.execSdready s
  | .isplaying n => Sys2Proof.Machine.execIsplaying n s
  | .reservedB => Sys2Proof.Machine.execReservedB s
  | .reservedHigh op => Sys2Proof.Machine.execReservedHigh op s

end Sys2Proof.Machine
end

