-- ==== Sys2Proof/Machine/Edge.lean ====
section
/-! DEFINITION. The edge function of section 6 of 10_state.md: which rule applies at a rising edge of `clk`. -/

namespace Sys2Proof.Machine

/-- One rising edge on the levels of `port`. Reset first (R200); then by `st`: when idle, a presented request is
accepted (R40) or nothing happens (R44); in SEND and WAIT the request that `op_q` names goes on (R41 to R43). -/
def edge (s : State) : Result :=
  if s.port.rst then .next (resetEdge s)
  else
    match s.st with
    | .idle => if s.port.reqValid then exec (presented s) s else .next (idleEdge s)
    | .send => exec (inProgress s) s
    | .wait => exec (inProgress s) s

/-- An edge's outcome, and after a next state the next levels on the ports. -/
def thenAdvance : Result → Result
  | .next t => .next (advance t)
  | .fault f => .fault f
  | .refused r => .refused r

end Sys2Proof.Machine
end

