-- ==== Sys2Proof/Machine/Step.lean ====
section
/-! DEFINITION. One step: one rising edge of `clk`, then the environment drives the ports for the next. -/

namespace Sys2Proof.Machine

/-- One step of the machine. -/
def step (s : State) : Host.Outcome State Fault Refusal := thenAdvance (edge s)

/-- The state `s` with the request of a table word presented to the idle block at the next edge (log 3). -/
def State.withFetchWord (s : State) (nbits w : Nat) : State :=
  presentRequest (BitVec.ofNat 28 (w % 2 ^ nbits)) s

end Sys2Proof.Machine
end

