-- ==== Sys2Proof/Machine/Transaction.lean ====
section
/-! DEFINITION. The transaction level (R9): one request in; emitted bytes, register updates, a wait and one response
out, as the pseudocode of R95, R110 to R118, R150, R155 and R174 says it. What the environment decides during the
request is an argument. The machine is the cycle level; a statement relates the two. -/

namespace Sys2Proof.Machine

/-- What the environment decides during one request (R190). -/
structure Draw where
  /-- The byte offered when the transport reports a fault, none if it reports none (R173). -/
  faultAt : Option (Fin 10)
  /-- The level of `rx_avail` at the sample (R151). -/
  rxAvail : Bool
  /-- The levels of `line_in` at acceptance (R157). -/
  lineIn  : Nat
deriving DecidableEq, Repr

/-- The effects of one request, from the registers the transaction level knows. -/
structure Effects where
  bound    : Bool
  volCache : Byte
  /-- The bytes the transport accepted, in order (R54). -/
  emitted  : List Byte
  /-- How many time units the request waited (R185). -/
  waited   : Nat
  respErr  : RespErr
  respBool : Bool
deriving DecidableEq, Repr

/-- A request that ends at once, with nothing emitted. -/
def respondAtOnce (bound : Bool) (vol : Byte) (e : RespErr) (b : Bool) : Effects :=
  { bound := bound, volCache := vol, emitted := [], waited := 0, respErr := e, respBool := b }

/-- `Emit(f)`, then `WaitUnits(n)`, then the completion; on TxFault the accepted bytes stay with the transport, and the
wait and what follows it are skipped (R8, R54, R173). -/
def emitThenWait (bound : Bool) (vol : Byte) (f : Frame) (n : Nat) (b : Bool) (d : Draw) : Effects :=
  match d.faultAt with
  | some j =>
    { bound := bound, volCache := vol, emitted := (frameBytes f).take j.val, waited := 0, respErr := .txFault
      respBool := false }
  | none => { bound := bound, volCache := vol, emitted := frameBytes f, waited := n, respErr := .ok, respBool := b }

/-- `SendCommand(cmd, h, l)` (R110). -/
def sendCommandEffects (bound : Bool) (vol : Byte) (o : FrameOperands) (d : Draw) : Effects :=
  if bound then emitThenWait bound vol o.frame 0 false d else respondAtOnce bound vol .notInit false

/-- The effects of one request on `bound` and `vol_cache`, at the transport and in the response. -/
def transact (prm : Config.Params) (i : Instr) (bound : Bool) (vol : Byte) (d : Draw) : Effects :=
  match i with
  | .frame c p => sendCommandEffects bound vol (frameOperands c p) d
  | .init => emitThenWait true vol initOperands.frame prm.initSettleUnits.toNat false d
  | .setvol v =>
    if bound then sendCommandEffects bound (clampVol v) (setvolOperands v) d else respondAtOnce bound vol .notInit false
  | .play t => sendCommandEffects bound vol (playOperands t) d
  | .playf e n => sendCommandEffects bound vol (playfOperands e n) d
  | .announce t => sendCommandEffects bound vol (announceOperands t) d
  | .pause => sendCommandEffects bound vol pauseOperands d
  | .resume => sendCommandEffects bound vol resumeOperands d
  | .stop => sendCommandEffects bound vol stopOperands d
  | .sdready =>
    if bound then emitThenWait bound vol sdreadyOperands.frame prm.queryWaitUnits.toNat d.rxAvail d
    else respondAtOnce bound vol .notInit false
  | .isplaying n =>
    if namesLine prm n then respondAtOnce bound vol .ok (!lineLevel d.lineIn n) else respondAtOnce bound vol .badLine false
  | .reservedB => respondAtOnce bound vol .illegal false
  | .reservedHigh _ => respondAtOnce bound vol .illegal false

end Sys2Proof.Machine
end

