-- ==== Sys2Proof/Safety.lean ====
section
/-! DEFINITION. The terms claims use: kinds of request, runs of steps, what the environment does over a run, and the
invariants of R45 and of R54, R55. -/

namespace Sys2Proof.Machine

/-- A request that emits a frame (R79): FRAME, INIT, SETVOL, PLAY, PLAYF, ANNOUNCE, PAUSE, RESUME, STOP, SDREADY. -/
def emitsFrame (i : Instr) : Bool := (operandsOf i).isSome

/-- The frame of a request, as R79 and R92 give it; none where it emits none. -/
def frameOf (i : Instr) : Option Frame := (operandsOf i).map FrameOperands.frame

/-- The length of the wait after the frame, by op code (R42): INIT and SDREADY wait, no other request does. -/
def delayOfOp (prm : Config.Params) (op : OpCode) : Option Word16 :=
  match op.toNat with
  | 0x1 => some prm.initSettleUnits
  | 0x9 => some prm.queryWaitUnits
  | _ => none

/-- The Boolean result of a frame request that ends with OK: SDREADY's sample, 0 for every other (R29, R43). -/
def okResult (i : Instr) (s : State) : Bool :=
  match i with
  | .sdready => s.port.rxAvail
  | .frame _ _ | .init | .setvol _ | .play _ | .playf _ _ | .announce _ | .pause | .resume | .stop => false
  | .isplaying _ | .reservedB | .reservedHigh _ => false

/-- `n` steps, stopping at the first fault or refusal. -/
def steps : Nat → State → Result
  | 0, s => .next s
  | n + 1, s =>
    match step s with
    | .next t => steps n t
    | .fault f => .fault f
    | .refused r => .refused r

/-- An edge that neither resets the block nor reports a transport fault. -/
def Ports.calm (p : Ports) : Bool := !p.rst && !p.txFault

/-- How many of these edges the transport is ready at. -/
def readyCount (ps : List Ports) : Nat := ps.countP fun p => p.txReady

/-- How many of these edges carry a tick. -/
def tickCount (ps : List Ports) : Nat := ps.countP fun p => p.unitTick

/-- The frame in `buf` is the frame of some request whose op code is `op_q`; for SETVOL it sends the cached volume. -/
def bufHoldsRequest (s : State) : Prop :=
  (∃ i : Instr, i.op = s.opQ ∧ frameOf i = some s.buf) ∧ (s.opQ = 0x2 → s.buf.paramLow = s.volCache)

/-- The invariants of R45 (and R25, R28, R170, R6): what every reachable state satisfies. -/
structure Inv (s : State) : Prop where
  /-- `vol_cache` <= 30. -/
  vol     : s.volCache.toNat ≤ 30
  /-- NUM_LINES is at least 1 (R6). -/
  lines   : 1 ≤ s.params.numLines
  /-- `st` != IDLE implies `bound` = 1. -/
  bound   : s.st ≠ .idle → s.bound = true
  /-- While a request is in progress `buf` holds its frame (R25). -/
  buf     : s.st ≠ .idle → bufHoldsRequest s
  /-- `st` = WAIT implies `op_q` is INIT or SDREADY and `cnt` < `n` for that op. -/
  waiting : s.st = .wait → ∃ n, delayOfOp s.params s.opQ = some n ∧ s.cnt.toNat < n.toNat
  /-- `done` = 1 implies `st` = IDLE. -/
  done    : s.done = true → s.st = .idle
  /-- `resp_bool` is 0 with every code but OK (R170). -/
  resp    : s.respBool = true → s.respErr = .ok

/-- What the transport has of the frame in progress (R54, R55): in SEND its bytes before `idx`, in WAIT all ten, and
nothing after them. -/
def SentInOrder (s : State) : Prop :=
  (s.st = .send → (frameBytes s.buf).take s.idx.val <:+ s.received) ∧
    (s.st = .wait → frameBytes s.buf <:+ s.received)

end Sys2Proof.Machine
end

