-- ==== Sys2Proof/Certificates/Slice0/Obligations.lean ====
section
/-! DEFINITION. The statements about the machine. A statement that a form answers a next state says so as an equation
whose right side is the whole state: every field it does not name is unchanged. `op_q`, `buf` and `idx` after a frame
request has ended are free values (log 5), so such an equation holds for some values of them and rests on none. -/

open Sys2Proof Sys2Proof.Machine

/-! ## The codec -/

/-- R90, R91: the checksum is the negated sum of frame bytes 1 to 6, with its range and its short form. -/
def Obligations.ChecksumIsNegatedSixByteSum : Prop :=
  ∀ cmd h l : Byte,
    (checksum cmd h l).toNat = (65536 - (0xFF + 0x06 + cmd.toNat + 0x00 + h.toNat + l.toNat)) % 65536 ∧
    (buildFrame cmd h l).checksumHigh.toNat = (checksum cmd h l).toNat / 256 ∧
    (buildFrame cmd h l).checksumLow.toNat = (checksum cmd h l).toNat % 256 ∧
    0x105 ≤ sumBytes cmd h l ∧ sumBytes cmd h l ≤ 0x402 ∧
    (checksum cmd h l).toNat = 0x10000 - sumBytes cmd h l ∧
    0xFBFE ≤ (checksum cmd h l).toNat ∧ (checksum cmd h l).toNat ≤ 0xFEFB ∧
    (buildFrame cmd h l).checksumHigh ∈ ([0xFB, 0xFC, 0xFD, 0xFE] : List Byte) ∧
    (checksum cmd h l).toNat = 0xFEFB - (cmd.toNat + h.toNat + l.toNat)

/-- R92, R75, R53: the ten bytes of a built frame, in transmission order. -/
def Obligations.BuiltFrameHasTheTenBytes : Prop :=
  ∀ cmd h l : Byte,
    frameBytes (buildFrame cmd h l) =
      [0x7E, 0xFF, 0x06, cmd, 0x00, h, l, BitVec.ofNat 8 ((checksum cmd h l).toNat / 256),
        BitVec.ofNat 8 ((checksum cmd h l).toNat % 256), 0xEF] ∧
    ∀ k : Fin 10, (frameBytes (buildFrame cmd h l))[k.val]? = some (frameByte (buildFrame cmd h l) k)

/-- R93: the checksum law of every built frame. -/
def Obligations.BuiltFramesObeyChecksumLaw : Prop :=
  ∀ cmd h l : Byte, lawSum (buildFrame cmd h l) % 65536 = 0

/-- R94: the 16-bit entry point and the two-byte entry point are one operation. -/
def Obligations.ParameterSplitsIntoHighAndLow : Prop :=
  (∀ (cmd : Byte) (p : Word16),
    buildFrame16 cmd p = buildFrame cmd (BitVec.ofNat 8 (p.toNat / 256)) (BitVec.ofNat 8 (p.toNat % 256))) ∧
  ∀ cmd h l : Byte, buildFrame16 cmd (BitVec.ofNat 16 (h.toNat * 256 + l.toNat)) = buildFrame cmd h l

/-- R82, R93: a receiver's check passes on exactly the frames BuildFrame can give. -/
def Obligations.ReceiverAcceptsExactlyBuiltFrames : Prop :=
  (∀ g : Frame, wellFormedFrame g = true ↔ g = buildFrame g.command g.paramHigh g.paramLow) ∧
  ∀ (bytes : List Byte) (g : Frame), receiveFrame bytes = some g ↔
    bytes = frameBytes g ∧ g = buildFrame g.command g.paramHigh g.paramLow

/-- R82: every frame a request emits is well-formed at the receiver, and the frames of SETVOL carry a zero high byte
and a volume of at most 30. -/
def Obligations.EmittedFramesPassTheReceiver : Prop :=
  ∀ (i : Instr) (f : Frame), frameOf i = some f →
    receiveFrame (frameBytes f) = some f ∧
    (∀ v : Word16, i = .setvol v → f.command = 0x06 ∧ f.paramHigh = 0 ∧ f.paramLow.toNat ≤ 30)

/-- R119: the volume clamp. -/
def Obligations.VolumeClampIsMinimumWithThirty : Prop :=
  ∀ v : Word16, (clampVol v).toNat = min v.toNat 30 ∧ (v.toNat ≤ 30 → (clampVol v).toNat = v.toNat) ∧
    (31 ≤ v.toNat → clampVol v = 30)

/-- R79, R77: the frame operands of every request. -/
def Obligations.FrameOperandTable : Prop :=
  (∀ (c : Byte) (p : Word16),
    operandsOf (.frame c p) = some ⟨c, BitVec.ofNat 8 (p.toNat / 256), BitVec.ofNat 8 (p.toNat % 256)⟩) ∧
  operandsOf .init = some ⟨0x0C, 0x00, 0x00⟩ ∧
  (∀ v : Word16, operandsOf (.setvol v) = some ⟨0x06, 0x00, BitVec.ofNat 8 (min v.toNat 30)⟩) ∧
  (∀ t : Word16,
    operandsOf (.play t) = some ⟨0x03, BitVec.ofNat 8 (t.toNat / 256), BitVec.ofNat 8 (t.toNat % 256)⟩) ∧
  (∀ d n : Byte, operandsOf (.playf d n) = some ⟨0x0F, d, n⟩) ∧
  (∀ t : Word16,
    operandsOf (.announce t) = some ⟨0x13, BitVec.ofNat 8 (t.toNat / 256), BitVec.ofNat 8 (t.toNat % 256)⟩) ∧
  operandsOf .pause = some ⟨0x0E, 0x00, 0x00⟩ ∧
  operandsOf .resume = some ⟨0x0D, 0x00, 0x00⟩ ∧
  operandsOf .stop = some ⟨0x16, 0x00, 0x00⟩ ∧
  operandsOf .sdready = some ⟨0x3F, 0x00, 0x00⟩ ∧
  (∀ n : Word16, operandsOf (.isplaying n) = none) ∧
  operandsOf .reservedB = none ∧
  ∀ op : OpCode, operandsOf (.reservedHigh op) = none

/-- R76 and the frame column of the opcode table: every frame of a request lies under its row. -/
def Obligations.FramesMatchTheirTableRow : Prop :=
  ∀ (i : Instr) (f : Frame) (row : FrameRow), i.wellFormed = true → frameOf i = some f → row ∈ frameRows →
    row.op = i.op → row.admits f = true

/-- R77, R82: the command byte of a named frame request names that request, and no other byte names one. -/
def Obligations.CommandByteNamesItsOperation : Prop :=
  (∀ (i : Instr) (o : FrameOperands), i.wellFormed = true → operandsOf i = some o → i.op ≠ 0x0 →
    operationOfCommand o.cmd = some i.op) ∧
  ∀ (c : Byte) (op : OpCode), operationOfCommand c = some op →
    op ≠ 0x0 ∧ ∃ (i : Instr) (o : FrameOperands), i.op = op ∧ operandsOf i = some o ∧ o.cmd = c

/-! ## The request word and the assembler -/

/-- R70, R71, R80: no operand bit of an encoding is dropped. -/
def Obligations.DecodeOfEncodeIsTheRequest : Prop :=
  ∀ i : Instr, i.wellFormed = true → decode (encode i) = i

/-- R70, R74: every 28-bit word spells a request, with the op code in its op field; a wider number spells none. -/
def Obligations.EveryRequestWordDecodes : Prop :=
  (∀ w : RequestWord, (decode w).wellFormed = true ∧ (decode w).op = opField w) ∧
  ∀ n : Nat, (n < 2 ^ 28 → decodeNumber n = .ok (decode (BitVec.ofNat 28 n))) ∧
    (2 ^ 28 ≤ n → decodeNumber n = .error .widerThanRequestWord)

/-- R71, R72, R73: the op code map, at every value of the fields; a field an op does not use has no effect. -/
def Obligations.OpCodeMapAndIgnoredFields : Prop :=
  ∀ (cmd : Byte) (p : Word16),
    decode (requestWord 0x0 cmd p) = .frame cmd p ∧
    decode (requestWord 0x1 cmd p) = .init ∧
    decode (requestWord 0x2 cmd p) = .setvol p ∧
    decode (requestWord 0x3 cmd p) = .play p ∧
    decode (requestWord 0x4 cmd p) = .playf (BitVec.ofNat 8 (p.toNat / 256)) (BitVec.ofNat 8 (p.toNat % 256)) ∧
    decode (requestWord 0x5 cmd p) = .announce p ∧
    decode (requestWord 0x6 cmd p) = .pause ∧
    decode (requestWord 0x7 cmd p) = .resume ∧
    decode (requestWord 0x8 cmd p) = .stop ∧
    decode (requestWord 0x9 cmd p) = .sdready ∧
    decode (requestWord 0xA cmd p) = .isplaying p ∧
    decode (requestWord 0xB cmd p) = .reservedB ∧
    ∀ op : OpCode, 0xC ≤ op.toNat → decode (requestWord op cmd p) = .reservedHigh op

/-- R70, R71: words written out from the spec. -/
def Obligations.WordsOfTheSpecDecode : Prop :=
  decode 0x003012C = .frame 0x03 0x012C ∧ decode 0x1000000 = .init ∧ decode 0x200002D = .setvol 45 ∧
  decode 0x3001234 = .play 0x1234 ∧ decode 0x4000105 = .playf 1 5 ∧ decode 0x5001234 = .announce 0x1234 ∧
  decode 0x6AAFFFF = .pause ∧ decode 0x7000000 = .resume ∧ decode 0x8000000 = .stop ∧ decode 0x9000000 = .sdready ∧
  decode 0xA000001 = .isplaying 1 ∧ decode 0xB000000 = .reservedB ∧ decode 0xFFFFFFF = .reservedHigh 0xF

/-- R80: the word of every source line, and a line is refused exactly where an operand does not fit its field. For
FRAME2 (R81) the fields are those of the model: R80 sets no limit for h and l, and refusing one above 255 is the model's
choice (log 12). -/
def Obligations.AssemblerGivesTheWordOrRefuses : Prop :=
  (∀ a : Asm, (assemble a).isSome = a.wellFormed) ∧
  (∀ (c p : Nat) (w : RequestWord), assemble (.frame c p) = some w → w.toNat = c * 0x10000 + p) ∧
  assemble .init = some 0x1000000 ∧
  (∀ (v : Nat) (w : RequestWord), assemble (.setvol v) = some w → w.toNat = 0x2000000 + v) ∧
  (∀ (t : Nat) (w : RequestWord), assemble (.play t) = some w → w.toNat = 0x3000000 + t) ∧
  (∀ (d n : Nat) (w : RequestWord), assemble (.playf d n) = some w → w.toNat = 0x4000000 + d * 0x100 + n) ∧
  (∀ (t : Nat) (w : RequestWord), assemble (.announce t) = some w → w.toNat = 0x5000000 + t) ∧
  assemble .pause = some 0x6000000 ∧
  assemble .resume = some 0x7000000 ∧
  assemble .stop = some 0x8000000 ∧
  assemble .sdready = some 0x9000000 ∧
  ∀ (n : Nat) (w : RequestWord), assemble (.isplaying n) = some w → w.toNat = 0xA000000 + n

/-- R81: the expansions of the pseudo-instructions (for byte operands of FRAME2, log 12). -/
def Obligations.PseudoInstructionsExpand : Prop :=
  (∀ c h l : Nat, h ≤ 255 → l ≤ 255 → assemble (.frame2 c h l) = assemble (.frame c (h * 256 + l))) ∧
  assemble .query = assemble (.frame 0x3F 0)

/-! ## Acceptance edges (R40) -/

/-- R40, R111: INIT at its acceptance edge, whatever `bound` is. -/
def Obligations.InitAcceptanceBindsAndStartsFrame : Prop :=
  ∀ s : State, s.st = .idle →
    exec .init s = .next { s with
      bound := true
      buf := ⟨0x7E, 0xFF, 0x06, 0x0C, 0x00, 0x00, 0x00, 0xFE, 0xEF, 0xEF⟩
      idx := 0, opQ := 0x1, st := .send, done := false }

/-- R40, R95, R113 to R115: the frame requests with operands at their acceptance edge. -/
def Obligations.OperandRequestsStartTheirFrame : Prop :=
  ∀ s : State, s.st = .idle → s.bound = true →
    (∀ (c : Byte) (p : Word16), exec (.frame c p) s = .next { s with
      buf := buildFrame c (BitVec.ofNat 8 (p.toNat / 256)) (BitVec.ofNat 8 (p.toNat % 256))
      idx := 0, opQ := 0x0, st := .send, done := false }) ∧
    (∀ t : Word16, exec (.play t) s = .next { s with
      buf := buildFrame 0x03 (BitVec.ofNat 8 (t.toNat / 256)) (BitVec.ofNat 8 (t.toNat % 256))
      idx := 0, opQ := 0x3, st := .send, done := false }) ∧
    (∀ d n : Byte, exec (.playf d n) s = .next { s with
      buf := buildFrame 0x0F d n
      idx := 0, opQ := 0x4, st := .send, done := false }) ∧
    ∀ t : Word16, exec (.announce t) s = .next { s with
      buf := buildFrame 0x13 (BitVec.ofNat 8 (t.toNat / 256)) (BitVec.ofNat 8 (t.toNat % 256))
      idx := 0, opQ := 0x5, st := .send, done := false }

/-- R40, R116 to R118, R150: the frame requests without operands at their acceptance edge. -/
def Obligations.ParameterlessRequestsStartTheirFrame : Prop :=
  ∀ s : State, s.st = .idle → s.bound = true →
    exec .pause s = .next { s with
      buf := ⟨0x7E, 0xFF, 0x06, 0x0E, 0x00, 0x00, 0x00, 0xFE, 0xED, 0xEF⟩
      idx := 0, opQ := 0x6, st := .send, done := false } ∧
    exec .resume s = .next { s with
      buf := ⟨0x7E, 0xFF, 0x06, 0x0D, 0x00, 0x00, 0x00, 0xFE, 0xEE, 0xEF⟩
      idx := 0, opQ := 0x7, st := .send, done := false } ∧
    exec .stop s = .next { s with
      buf := ⟨0x7E, 0xFF, 0x06, 0x16, 0x00, 0x00, 0x00, 0xFE, 0xE5, 0xEF⟩
      idx := 0, opQ := 0x8, st := .send, done := false } ∧
    exec .sdready s = .next { s with
      buf := ⟨0x7E, 0xFF, 0x06, 0x3F, 0x00, 0x00, 0x00, 0xFE, 0xBC, 0xEF⟩
      idx := 0, opQ := 0x9, st := .send, done := false }

/-- R40, R112, R119: SETVOL caches the clamped volume at its acceptance edge and sends the same value. -/
def Obligations.SetvolCachesAndSendsClampedVolume : Prop :=
  ∀ (v : Word16) (s : State), s.st = .idle → s.bound = true →
    exec (.setvol v) s = .next { s with
      volCache := BitVec.ofNat 8 (min v.toNat 30)
      buf := buildFrame 0x06 0x00 (BitVec.ofNat 8 (min v.toNat 30))
      idx := 0, opQ := 0x2, st := .send, done := false }

/-- R155 to R157, R176: ISPLAYING samples the named line, whatever `bound` is; an index that names no line is
BAD_LINE. That bit i of `line_in` is line i follows R7 and is the model's choice against V64's numeral (log 11). -/
def Obligations.IsplayingReadsTheNamedLine : Prop :=
  ∀ (n : Word16) (s : State), s.st = .idle →
    (n.toNat < s.params.numLines → exec (.isplaying n) s = .next { s with
      respErr := .ok, respBool := !(s.port.lineIn.testBit n.toNat), done := true }) ∧
    (s.params.numLines ≤ n.toNat → exec (.isplaying n) s = .next { s with
      respErr := .badLine, respBool := false, done := true })

/-- R174, R73: a reserved op code completes with ILLEGAL at its acceptance edge, whatever `bound` is. -/
def Obligations.ReservedOpsCompleteIllegal : Prop :=
  ∀ s : State, s.st = .idle →
    exec .reservedB s = .next { s with respErr := .illegal, respBool := false, done := true } ∧
    ∀ op : OpCode,
      exec (.reservedHigh op) s = .next { s with respErr := .illegal, respBool := false, done := true }

/-- R175: every frame request but INIT completes with NOT_INIT at its acceptance edge while `bound` = 0. -/
def Obligations.UnboundRequestsCompleteNotInit : Prop :=
  ∀ (i : Instr) (s : State), emitsFrame i = true → i ≠ .init → s.st = .idle → s.bound = false →
    exec i s = .next { s with respErr := .notInit, respBool := false, done := true }

/-! ## Edges in SEND and WAIT (R41 to R43) -/

/-- R41, R173: one handshake of every frame request: a fault wins over `tx_ready` and ends the request, a ready
transport takes byte `idx`, a stall changes nothing. -/
def Obligations.SendEdgeOfFrameRequests : Prop :=
  ∀ (i : Instr) (s : State), emitsFrame i = true → s.st = .send →
    (s.port.txFault = true → ∃ (o : OpCode) (b : Frame) (x : Fin 10), exec i s = .next { s with
      opQ := o, buf := b, idx := x, st := .idle, respErr := .txFault, respBool := false, done := true }) ∧
    (s.port.txFault = false → s.port.txReady = true → s.idx.val < 9 → exec i s = .next { s with
      idx := s.idx + 1, received := s.received ++ [frameByte s.buf s.idx], done := false }) ∧
    (s.port.txFault = false → s.port.txReady = false → exec i s = .next { s with done := false })

/-- R42: the edge that transfers byte 9. FRAME, SETVOL, PLAY, PLAYF, ANNOUNCE, PAUSE, RESUME and STOP complete with
OK; INIT and SDREADY enter WAIT, or at a wait of 0 units finish at this edge. -/
def Obligations.LastByteCompletesOrWaits : Prop :=
  ∀ (i : Instr) (s : State), emitsFrame i = true → s.st = .send → s.idx = 9 → s.port.txFault = false →
    s.port.txReady = true →
    (delayOfOp s.params i.op = none ∨ delayOfOp s.params i.op = some 0 →
      ∃ (o : OpCode) (b : Frame) (x : Fin 10), exec i s = .next { s with
        opQ := o, buf := b, idx := x, received := s.received ++ [s.buf.endByte]
        st := .idle, respErr := .ok, respBool := okResult i s, done := true }) ∧
    (∀ n : Word16, delayOfOp s.params i.op = some n → n ≠ 0 → exec i s = .next { s with
      received := s.received ++ [s.buf.endByte], cnt := 0, st := .wait, done := false })

/-- R43: an edge in WAIT of INIT and SDREADY: a tick is counted until the last one, at which the request completes
with OK and SDREADY's result is `rx_avail` at that edge. -/
def Obligations.WaitEdgeCountsTicksAndFinishes : Prop :=
  ∀ (i : Instr) (s : State) (n : Word16), s.st = .wait →
    (i = .init ∧ n = s.params.initSettleUnits ∨ i = .sdready ∧ n = s.params.queryWaitUnits) →
    (s.port.unitTick = false → exec i s = .next { s with done := false }) ∧
    (s.port.unitTick = true → s.cnt.toNat + 1 < n.toNat → exec i s = .next { s with
      cnt := BitVec.ofNat 16 (s.cnt.toNat + 1), done := false }) ∧
    (s.port.unitTick = true → s.cnt.toNat + 1 = n.toNat →
      ∃ (o : OpCode) (b : Frame) (x : Fin 10), exec i s = .next { s with
        opQ := o, buf := b, idx := x, st := .idle, respErr := .ok, respBool := okResult i s, done := true })

/-- R170: a completion's code has the cause the table gives it, and `resp_bool` is 0 with every code but OK. -/
def Obligations.CompletionCodesHaveTheirCauses : Prop :=
  ∀ (i : Instr) (s t : State), i.wellFormed = true → exec i s = .next t → t.done = true →
    (t.respErr = .illegal → 0xB ≤ i.op.toNat ∧ s.st = .idle) ∧
    (t.respErr = .notInit → emitsFrame i = true ∧ i ≠ .init ∧ s.st = .idle ∧ s.bound = false) ∧
    (t.respErr = .badLine → s.st = .idle ∧ ∃ n, i = .isplaying n ∧ s.params.numLines ≤ n.toNat) ∧
    (t.respErr = .txFault → s.st = .send ∧ s.port.txFault = true) ∧
    (t.respErr ≠ .ok → t.respBool = false)

/-- R120: PLAY, PLAYF, ANNOUNCE, PAUSE, RESUME and STOP are FRAME with their command byte and parameter, at every
edge, in every effect but the unobservable `op_q`. -/
def Obligations.PlaybackCommandsEqualTheirFrame : Prop :=
  ∀ (i : Instr) (o : FrameOperands) (s : State), i.wellFormed = true → operandsOf i = some o →
    i.op ∈ ([0x3, 0x4, 0x5, 0x6, 0x7, 0x8] : List OpCode) → s.st ≠ .wait →
    ∃ (t : State) (op : OpCode), exec i s = .next t ∧
      exec (.frame o.cmd (BitVec.ofNat 16 (o.h.toNat * 256 + o.l.toNat))) s = .next { t with opQ := op }

/-! ## The step -/

/-- R32, R40: an edge at which an idle block is presented a request is exec of the decoded request, and then the
environment drives the next levels. -/
def Obligations.StepRunsThePresentedRequest : Prop :=
  ∀ (s : State) (i : Instr), s.port.rst = false → s.st = .idle → s.port.reqValid = true →
    decode (requestWord s.port.reqOp s.port.reqCmd s.port.reqP) = i →
    step s = thenAdvance (exec i s)

/-- R24, R25, R41 to R43: in SEND and WAIT an edge is exec of the request in progress, whatever its operands were and
whatever the request ports carry. -/
def Obligations.StepContinuesTheRequestInProgress : Prop :=
  ∀ (s : State) (i : Instr), s.port.rst = false → s.st ≠ .idle → i.wellFormed = true → i.op = s.opQ →
    step s = thenAdvance (exec i s)

/-- R200, R201: a reset edge. -/
def Obligations.ResetEdgeLoadsResetValues : Prop :=
  ∀ s : State, s.port.rst = true →
    reqReady s = false ∧ txValid s = false ∧
    ∃ (o : OpCode) (b : Frame), step s = .next (advance { s with
      bound := false, volCache := 20, st := .idle, opQ := o, buf := b, idx := 0, cnt := 0
      respErr := .ok, respBool := false, done := false })

/-- R20, R200: the registers of the state after reset. -/
def Obligations.ResetStateHasResetColumn : Prop :=
  State.reset.bound = false ∧ State.reset.volCache = 20 ∧ State.reset.st = .idle ∧ State.reset.idx = 0 ∧
  State.reset.cnt = 0 ∧ State.reset.respErr = .ok ∧ State.reset.respBool = false ∧ State.reset.done = false ∧
  1 ≤ State.reset.params.numLines

/-- R44: an idle edge loads `done` with 0, changes nothing else and reads no other input. The second clause equates
whole next states; that the input levels after the edge agree as well is the model's choice (log 2), not the spec's. -/
def Obligations.IdleEdgeChangesOnlyDone : Prop :=
  ∀ s : State, s.port.rst = false → s.st = .idle → s.port.reqValid = false →
    step s = .next (advance { s with done := false }) ∧
    ∀ p : Ports, p.rst = false → p.reqValid = false → step (s.withPort p) = step s

/-- R22, R32, R33: the outputs, as functions of the registers and `rst` alone. That the last clause holds of `tx_data`
while no byte is offered, where R33 leaves it any value, is the model's choice (log 6). -/
def Obligations.OutputsAreFunctionsOfRegistersAndReset : Prop :=
  ∀ s : State,
    (reqReady s = true ↔ s.st = .idle ∧ s.port.rst = false) ∧
    (txValid s = true ↔ s.st = .send ∧ s.port.rst = false) ∧
    (txValid s = true → (outputs s).txData = frameByte s.buf s.idx) ∧
    (outputs s).volQ = s.volCache ∧ (outputs s).done = s.done ∧ (outputs s).respBool = s.respBool ∧
    ∀ p : Ports, p.rst = s.port.rst → outputs (s.withPort p) = outputs s

/-- R170, D24: the numbers of the response codes at the port. -/
def Obligations.ResponseCodeNumbers : Prop :=
  ∀ s : State,
    ((outputs s).respErr = 0 ↔ s.respErr = .ok) ∧ ((outputs s).respErr = 1 ↔ s.respErr = .illegal) ∧
    ((outputs s).respErr = 2 ↔ s.respErr = .notInit) ∧ ((outputs s).respErr = 3 ↔ s.respErr = .badLine) ∧
    ((outputs s).respErr = 4 ↔ s.respErr = .txFault) ∧ (outputs s).respErr.toNat ≤ 4

/-- R54, R33: the transport receives the offered byte exactly at a handshake without a fault, and nothing else. -/
def Obligations.BytesMoveOnlyAtHandshakes : Prop :=
  ∀ s t : State, step s = .next t →
    t.received = s.received ++
      if txValid s && (s.port.txReady && !s.port.txFault) then [frameByte s.buf s.idx] else []

/-- R28, R112: which step writes `vol_cache`, and what it writes. -/
def Obligations.VolCacheWrittenOnlyBySetvol : Prop :=
  ∀ s t : State, step s = .next t →
    (s.port.rst = true → t.volCache = 20) ∧
    (∀ v : Word16, s.port.rst = false → s.st = .idle → s.port.reqValid = true → presented s = .setvol v →
      s.bound = true → t.volCache = BitVec.ofNat 8 (min v.toNat 30)) ∧
    (s.port.rst = false → t.volCache ≠ s.volCache →
      s.st = .idle ∧ s.port.reqValid = true ∧ s.bound = true ∧ ∃ v, presented s = .setvol v)

/-- R27: `bound` is set by the acceptance of INIT alone and cleared by reset alone. -/
def Obligations.BoundSetByInitClearedByReset : Prop :=
  ∀ s t : State, step s = .next t →
    (s.bound = false → t.bound = true →
      s.port.rst = false ∧ s.st = .idle ∧ s.port.reqValid = true ∧ presented s = .init) ∧
    (s.bound = true → t.bound = false → s.port.rst = true) ∧
    (s.port.rst = false → s.st = .idle → s.port.reqValid = true → presented s = .init → t.bound = true) ∧
    (s.port.rst = true → t.bound = false)

/-- R31, R171: a step loads `done` with 1 exactly when its edge completes a request: one that was in progress and is
no more, or one accepted that ends at once. -/
def Obligations.DoneMarksCompletionEdges : Prop :=
  ∀ s t : State, step s = .next t →
    (t.done = true ↔
      s.port.rst = false ∧ t.st = .idle ∧ (s.st ≠ .idle ∨ s.port.reqValid = true))

/-- R29, R200: the response registers change only at a completion or a reset edge. -/
def Obligations.ResponseHeldUntilNextCompletion : Prop :=
  ∀ s t : State, step s = .next t →
    (s.port.rst = false → t.done = false → t.respErr = s.respErr ∧ t.respBool = s.respBool) ∧
    (s.port.rst = true → t.respErr = .ok ∧ t.respBool = false)

/-- R44, R155, R157: an idle block reads of its inputs `rst`, `req_valid`, a presented request, and for ISPLAYING the
named line. The model's choices beside the rules: the next states agree in the input levels after the edge too (log 2)
and in `op_q` and `buf` after a reset edge (log 4), and bit i of `line_in` is line i (log 11). -/
def Obligations.IdleBlockReadsOnlyTheRequest : Prop :=
  ∀ (s : State) (p : Ports), s.st = .idle → p.rst = s.port.rst → p.reqValid = s.port.reqValid →
    (s.port.reqValid = true → p.reqOp = s.port.reqOp ∧ p.reqCmd = s.port.reqCmd ∧ p.reqP = s.port.reqP) →
    (∀ n : Word16, s.port.reqValid = true → presented s = .isplaying n → n.toNat < s.params.numLines →
      p.lineIn.testBit n.toNat = s.port.lineIn.testBit n.toNat) →
    step (s.withPort p) = step s

/-- R25, R173, R186, R209: in SEND the block reads `rst`, `tx_fault`, `tx_ready`, and `rx_avail` only where SDREADY
with a wait of 0 ends. The model's choices beside the rules: the next states agree in the input levels after the edge too
(log 2), and in `op_q`, `buf` and `idx` after a completion (log 5), in `op_q` and `buf` after a reset edge (log 4). -/
def Obligations.SendingBlockReadsOnlyTheHandshake : Prop :=
  ∀ (s : State) (p : Ports), s.st = .send → p.rst = s.port.rst → p.txFault = s.port.txFault →
    p.txReady = s.port.txReady →
    (s.opQ = 0x9 → s.params.queryWaitUnits = 0 → s.idx = 9 → p.rxAvail = s.port.rxAvail) →
    step (s.withPort p) = step s

/-- R25, R43, R151, R173, R209: in WAIT the block reads `rst`, `unit_tick`, and `rx_avail` only at the tick that ends
SDREADY's wait. The model's choices beside the rules: the next states agree in the input levels after the edge too
(log 2), and in `op_q`, `buf` and `idx` after a completion (log 5), in `op_q` and `buf` after a reset edge (log 4). -/
def Obligations.WaitingBlockReadsOnlyTheTick : Prop :=
  ∀ (s : State) (p : Ports), s.st = .wait → p.rst = s.port.rst → p.unitTick = s.port.unitTick →
    (s.opQ = 0x9 → s.port.unitTick = true → s.cnt.toNat + 1 = s.params.queryWaitUnits.toNat →
      p.rxAvail = s.port.rxAvail) →
    step (s.withPort p) = step s

/-- R6, R190 and the model's own environment list (log 2): no step writes the parameters; after an edge the listed
levels come one by one. -/
def Obligations.StepKeepsParametersAndConsumesEnvironment : Prop :=
  ∀ s t : State, step s = .next t →
    t.params = s.params ∧ t.edgeCount = s.edgeCount + 1 ∧
    (∀ (p : Ports) (ps : List Ports), s.env = p :: ps → t.port = p ∧ t.env = ps) ∧ (s.env = [] → t.env = [])

/-- The model's own (log 3): the step after presenting a table word runs exactly the request it decodes to. -/
def Obligations.PresentedTableWordRuns : Prop :=
  ∀ (s : State) (nbits w : Nat) (i : Instr), decodeTableWord nbits w = some i →
    step (s.withFetchWord nbits w) = thenAdvance (exec i (s.withFetchWord nbits w)) ∧
    (s.withFetchWord nbits w).env = s.env ∧ (s.withFetchWord nbits w).bound = s.bound ∧
    (s.withFetchWord nbits w).params = s.params ∧ (s.withFetchWord nbits w).port.lineIn = s.port.lineIn

/-! ## Invariants -/

/-- R45: every step keeps the invariants. -/
def Obligations.StepKeepsInvariants : Prop :=
  ∀ s t : State, Inv s → step s = .next t → Inv t

/-- R45, R200: the state after reset satisfies the invariants. -/
def Obligations.ResetSatisfiesInvariants : Prop := Inv State.reset

/-- R172, R45: from a state that satisfies the invariants the block never halts. -/
def Obligations.BlockNeverHalts : Prop :=
  ∀ (n : Nat) (s : State), Inv s → ∃ t : State, steps n s = .next t ∧ Inv t

/-- R54, R55: the transport has the bytes of the frame in progress in order, without repetition or gap. -/
def Obligations.FrameBytesArriveInOrder : Prop :=
  ∀ s t : State, SentInOrder s → step s = .next t → SentInOrder t

/-! ## Runs -/

/-- R41, R42, R213: a frame request without a wait, presented to an idle, bound block, completes with OK at the tenth
edge at which the transport is ready, whatever the stalls, and the transport has its ten bytes. The clause on `env` is
the model's bookkeeping (log 2). INIT and SDREADY with a wait of 0 are ZeroWaitRequestCompletesAtTenthHandshake. -/
def Obligations.FrameRequestCompletesAtTenthHandshake : Prop :=
  ∀ (s : State) (i : Instr) (f : Frame) (ps rest : List Ports) (last : Ports),
    s.st = .idle → s.bound = true → s.port.rst = false → s.port.reqValid = true → presented s = i →
    frameOf i = some f → delayOfOp s.params i.op = none →
    s.env = ps ++ last :: rest → (∀ p ∈ ps, p.calm = true) → readyCount ps = 9 →
    last.calm = true → last.txReady = true →
    ∃ t : State, steps (ps.length + 2) s = .next t ∧
      t.st = .idle ∧ t.done = true ∧ t.respErr = .ok ∧ t.respBool = false ∧
      t.received = s.received ++ frameBytes f ∧ t.bound = true ∧ t.env = rest.tail ∧
      (∀ v : Word16, i = .setvol v → t.volCache = BitVec.ofNat 8 (min v.toNat 30)) ∧
      ((∀ v : Word16, i ≠ .setvol v) → t.volCache = s.volCache) ∧
      ∀ k : Nat, 1 ≤ k → k ≤ ps.length + 1 → ∃ u : State, steps k s = .next u ∧ u.st = .send ∧ u.done = false

/-- R42, R43, R111, R150, R151, R185: INIT and SDREADY with a wait of `n` > 0 units complete with OK at the `n`-th
tick after the frame, whatever the stalls and the pauses between ticks; a tick while the frame is sent is not counted,
a transport fault in WAIT is ignored, and SDREADY's result is `rx_avail` at that edge alone. The clause on `env`
is the model's bookkeeping (log 2). -/
def Obligations.WaitingRequestCompletesAtLastTick : Prop :=
  ∀ (s : State) (i : Instr) (f : Frame) (n : Word16) (ps qs rest : List Ports) (sent tick : Ports),
    s.st = .idle → (i = .init ∨ s.bound = true) → s.port.rst = false → s.port.reqValid = true → presented s = i →
    frameOf i = some f → delayOfOp s.params i.op = some n → n ≠ 0 →
    s.env = ps ++ sent :: (qs ++ tick :: rest) → (∀ p ∈ ps, p.calm = true) → readyCount ps = 9 →
    sent.calm = true → sent.txReady = true →
    (∀ q ∈ qs, q.rst = false) → tickCount qs + 1 = n.toNat → tick.rst = false → tick.unitTick = true →
    ∃ t : State, steps (ps.length + qs.length + 3) s = .next t ∧
      t.st = .idle ∧ t.done = true ∧ t.respErr = .ok ∧
      t.respBool = (if i = .sdready then tick.rxAvail else false) ∧
      t.received = s.received ++ frameBytes f ∧ t.bound = true ∧ t.volCache = s.volCache ∧ t.env = rest.tail ∧
      ∀ k : Nat, 1 ≤ k → k ≤ ps.length + qs.length + 2 →
        ∃ u : State, steps k s = .next u ∧ u.st ≠ .idle ∧ u.done = false

/-- R54, R173, R178: a fault reported when `j` bytes have been taken ends the request with TX_FAULT at that edge; the
transport keeps the first `j` bytes, and `bound` after INIT and `vol_cache` after SETVOL keep what acceptance wrote. -/
def Obligations.FaultLeavesPrefixAndAcceptanceEffects : Prop :=
  ∀ (s : State) (i : Instr) (f : Frame) (ps rest : List Ports) (bad : Ports),
    s.st = .idle → (i = .init ∨ s.bound = true) → s.port.rst = false → s.port.reqValid = true → presented s = i →
    frameOf i = some f →
    s.env = ps ++ bad :: rest → (∀ p ∈ ps, p.calm = true) → readyCount ps ≤ 9 →
    bad.rst = false → bad.txFault = true →
    ∃ t : State, steps (ps.length + 2) s = .next t ∧
      t.st = .idle ∧ t.done = true ∧ t.respErr = .txFault ∧ t.respBool = false ∧
      t.received = s.received ++ (frameBytes f).take (readyCount ps) ∧ t.bound = true ∧
      (∀ v : Word16, i = .setvol v → t.volCache = BitVec.ofNat 8 (min v.toNat 30)) ∧
      ((∀ v : Word16, i ≠ .setvol v) → t.volCache = s.volCache)

/-- R212: the hangs. A block in SEND whose transport neither accepts nor faults, and a block in WAIT without a tick,
stay where they are for as long as that lasts. -/
def Obligations.HangsAreKept : Prop :=
  ∀ (s : State) (ps : List Ports), s.env = ps →
    ((s.st = .send ∧ ∀ p ∈ s.port :: ps, p.calm = true ∧ p.txReady = false) ∨
     (s.st = .wait ∧ ∀ p ∈ s.port :: ps, p.rst = false ∧ p.unitTick = false)) →
    ∃ t : State, steps (ps.length + 1) s = .next t ∧ t.st = s.st ∧ t.opQ = s.opQ ∧ t.buf = s.buf ∧ t.idx = s.idx ∧
      t.cnt = s.cnt ∧ t.received = s.received ∧ t.done = false

/-- R9: the cycle level realises the transaction level. From the acceptance of a request to its first completion
without a reset, the effects on `bound` and `vol_cache`, at the transport and in the response are those of the
transaction for some draws of the environment, with the lines as sampled at acceptance and, for a request that ends
with a sample, `rx_avail` as sampled at its last edge. The length of the wait is the matter of
WaitingRequestCompletesAtLastTick. -/
def Obligations.CycleLevelRefinesTransactionLevel : Prop :=
  ∀ (s t : State) (n : Nat), s.st = .idle → s.port.rst = false → s.port.reqValid = true →
    steps (n + 1) s = .next t → t.done = true →
    (∀ k : Nat, k < n → ∃ u : State, steps (k + 1) s = .next u ∧ u.done = false ∧ u.port.rst = false) →
    ∃ d : Draw, d.lineIn = s.port.lineIn ∧
      (∀ u : State, steps n s = .next u → d.rxAvail = u.port.rxAvail) ∧
      (transact s.params (presented s) s.bound s.volCache d).bound = t.bound ∧
      (transact s.params (presented s) s.bound s.volCache d).volCache = t.volCache ∧
      s.received ++ (transact s.params (presented s) s.bound s.volCache d).emitted = t.received ∧
      (transact s.params (presented s) s.bound s.volCache d).respErr = t.respErr ∧
      (transact s.params (presented s) s.bound s.volCache d).respBool = t.respBool

/-- R42, R43, R111, R150, R213: INIT and SDREADY with a wait of 0 units complete with OK at the tenth edge at which the
transport is ready, whatever the stalls; SDREADY's result is `rx_avail` at that edge. The clause on `env` is the model's
bookkeeping (log 2). -/
def Obligations.ZeroWaitRequestCompletesAtTenthHandshake : Prop :=
  ∀ (s : State) (i : Instr) (f : Frame) (ps rest : List Ports) (last : Ports),
    s.st = .idle → (i = .init ∨ s.bound = true) → s.port.rst = false → s.port.reqValid = true → presented s = i →
    frameOf i = some f → delayOfOp s.params i.op = some 0 →
    s.env = ps ++ last :: rest → (∀ p ∈ ps, p.calm = true) → readyCount ps = 9 →
    last.calm = true → last.txReady = true →
    ∃ t : State, steps (ps.length + 2) s = .next t ∧
      t.st = .idle ∧ t.done = true ∧ t.respErr = .ok ∧
      t.respBool = (if i = .sdready then last.rxAvail else false) ∧
      t.received = s.received ++ frameBytes f ∧ t.bound = true ∧ t.volCache = s.volCache ∧ t.env = rest.tail ∧
      ∀ k : Nat, 1 ≤ k → k ≤ ps.length + 1 → ∃ u : State, steps k s = .next u ∧ u.st = .send ∧ u.done = false
end

