-- ==== Sys2Proof/Laws/Codec.lean ====
section
/-! SUPPORT. Small facts about the codec and the operands: the bytes of a value as quotient and remainder, the bytes
of a frame one by one, the bound of the clamp. -/

namespace Sys2Proof

theorem highByte_toNat (p : Word16) : (highByte p).toNat = p.toNat / 256 := by
  have := p.isLt
  simp only [highByte, BitVec.extractLsb'_toNat, Nat.shiftRight_eq_div_pow]
  omega

theorem lowByte_toNat (p : Word16) : (lowByte p).toNat = p.toNat % 256 := by
  simp only [lowByte, BitVec.extractLsb'_toNat, Nat.shiftRight_eq_div_pow]
  omega

theorem highByte_eq_ofNat (p : Word16) : highByte p = BitVec.ofNat 8 (p.toNat / 256) :=
  BitVec.eq_of_toNat_eq (by have := p.isLt; rw [highByte_toNat, BitVec.toNat_ofNat]; omega)

theorem lowByte_eq_ofNat (p : Word16) : lowByte p = BitVec.ofNat 8 (p.toNat % 256) :=
  BitVec.eq_of_toNat_eq (by rw [lowByte_toNat, BitVec.toNat_ofNat]; omega)

theorem requestWord_toNat (op : OpCode) (cmd : Byte) (p : Word16) :
    (requestWord op cmd p).toNat = op.toNat * 0x1000000 + cmd.toNat * 0x10000 + p.toNat := by
  have h1 := cmd.isLt
  have h2 := p.isLt
  simp only [requestWord, BitVec.toNat_append]
  rw [← Nat.shiftLeft_add_eq_or_of_lt h1, ← Nat.shiftLeft_add_eq_or_of_lt h2]
  simp only [Nat.shiftLeft_eq]
  omega

namespace Machine

theorem sumBytes_eq (cmd h l : Byte) : sumBytes cmd h l = 0x105 + cmd.toNat + h.toNat + l.toNat := by
  simp [sumBytes, versionByte, lengthByte, feedbackByte]

theorem checksum_toNat (cmd h l : Byte) : (checksum cmd h l).toNat = 65536 - sumBytes cmd h l := by
  have := sumBytes_eq cmd h l
  simp only [checksum, BitVec.toNat_ofNat]
  omega

theorem clampVol_toNat (v : Word16) : (clampVol v).toNat = min v.toNat 30 := by
  simp only [clampVol, volMax, BitVec.toNat_ofNat]
  omega

@[simp] theorem frameBytes_length (f : Frame) : (frameBytes f).length = 10 := rfl

/-- The bytes before `i + 1` are the bytes before `i` and byte `i`. -/
theorem frameBytes_take_succ (f : Frame) (i : Fin 10) :
    (frameBytes f).take (i.val + 1) = (frameBytes f).take i.val ++ [frameByte f i] := by
  match i with
  | ⟨n, hn⟩ => interval_cases n <;> rfl

/-- Byte 9 is the last. -/
theorem frameBytes_eq_take_nine (f : Frame) : frameBytes f = (frameBytes f).take 9 ++ [frameByte f 9] := rfl

theorem succ_val_of_lt {i : Fin 10} (h : i.val < 9) : (i + 1).val = i.val + 1 := by
  rw [Fin.val_add]
  change (i.val + 1) % 10 = i.val + 1
  omega

end Machine

end Sys2Proof
end

