-- ==== Sys2Proof/Laws/State.lean ====
section
/-! SUPPORT. Each field after each named update of State, and after the environment's advance: what an update writes,
and that it leaves every other field alone. -/

namespace Sys2Proof.Machine

@[simp] theorem clearDone_bound (s : State) : s.clearDone.bound = s.bound := rfl
@[simp] theorem clearDone_volCache (s : State) : s.clearDone.volCache = s.volCache := rfl
@[simp] theorem clearDone_st (s : State) : s.clearDone.st = s.st := rfl
@[simp] theorem clearDone_opQ (s : State) : s.clearDone.opQ = s.opQ := rfl
@[simp] theorem clearDone_buf (s : State) : s.clearDone.buf = s.buf := rfl
@[simp] theorem clearDone_idx (s : State) : s.clearDone.idx = s.idx := rfl
@[simp] theorem clearDone_cnt (s : State) : s.clearDone.cnt = s.cnt := rfl
@[simp] theorem clearDone_respErr (s : State) : s.clearDone.respErr = s.respErr := rfl
@[simp] theorem clearDone_respBool (s : State) : s.clearDone.respBool = s.respBool := rfl
@[simp] theorem clearDone_done (s : State) : s.clearDone.done = false := rfl
@[simp] theorem clearDone_params (s : State) : s.clearDone.params = s.params := rfl
@[simp] theorem clearDone_port (s : State) : s.clearDone.port = s.port := rfl
@[simp] theorem clearDone_env (s : State) : s.clearDone.env = s.env := rfl
@[simp] theorem clearDone_edgeCount (s : State) : s.clearDone.edgeCount = s.edgeCount := rfl
@[simp] theorem clearDone_received (s : State) : s.clearDone.received = s.received := rfl

@[simp] theorem complete_bound (e : RespErr) (b : Bool) (s : State) : (complete e b s).bound = s.bound := rfl
@[simp] theorem complete_volCache (e : RespErr) (b : Bool) (s : State) : (complete e b s).volCache = s.volCache := rfl
@[simp] theorem complete_st (e : RespErr) (b : Bool) (s : State) : (complete e b s).st = .idle := rfl
@[simp] theorem complete_opQ (e : RespErr) (b : Bool) (s : State) : (complete e b s).opQ = s.opQ := rfl
@[simp] theorem complete_buf (e : RespErr) (b : Bool) (s : State) : (complete e b s).buf = s.buf := rfl
@[simp] theorem complete_idx (e : RespErr) (b : Bool) (s : State) : (complete e b s).idx = s.idx := rfl
@[simp] theorem complete_cnt (e : RespErr) (b : Bool) (s : State) : (complete e b s).cnt = s.cnt := rfl
@[simp] theorem complete_respErr (e : RespErr) (b : Bool) (s : State) : (complete e b s).respErr = e := rfl
@[simp] theorem complete_respBool (e : RespErr) (b : Bool) (s : State) : (complete e b s).respBool = b := rfl
@[simp] theorem complete_done (e : RespErr) (b : Bool) (s : State) : (complete e b s).done = true := rfl
@[simp] theorem complete_params (e : RespErr) (b : Bool) (s : State) : (complete e b s).params = s.params := rfl
@[simp] theorem complete_port (e : RespErr) (b : Bool) (s : State) : (complete e b s).port = s.port := rfl
@[simp] theorem complete_env (e : RespErr) (b : Bool) (s : State) : (complete e b s).env = s.env := rfl
@[simp] theorem complete_edgeCount (e : RespErr) (b : Bool) (s : State) : (complete e b s).edgeCount = s.edgeCount := rfl
@[simp] theorem complete_received (e : RespErr) (b : Bool) (s : State) : (complete e b s).received = s.received := rfl

@[simp] theorem bindTransport_bound (s : State) : s.bindTransport.bound = true := rfl
@[simp] theorem bindTransport_volCache (s : State) : s.bindTransport.volCache = s.volCache := rfl
@[simp] theorem bindTransport_st (s : State) : s.bindTransport.st = s.st := rfl
@[simp] theorem bindTransport_opQ (s : State) : s.bindTransport.opQ = s.opQ := rfl
@[simp] theorem bindTransport_buf (s : State) : s.bindTransport.buf = s.buf := rfl
@[simp] theorem bindTransport_idx (s : State) : s.bindTransport.idx = s.idx := rfl
@[simp] theorem bindTransport_cnt (s : State) : s.bindTransport.cnt = s.cnt := rfl
@[simp] theorem bindTransport_respErr (s : State) : s.bindTransport.respErr = s.respErr := rfl
@[simp] theorem bindTransport_respBool (s : State) : s.bindTransport.respBool = s.respBool := rfl
@[simp] theorem bindTransport_done (s : State) : s.bindTransport.done = s.done := rfl
@[simp] theorem bindTransport_params (s : State) : s.bindTransport.params = s.params := rfl
@[simp] theorem bindTransport_port (s : State) : s.bindTransport.port = s.port := rfl
@[simp] theorem bindTransport_env (s : State) : s.bindTransport.env = s.env := rfl
@[simp] theorem bindTransport_edgeCount (s : State) : s.bindTransport.edgeCount = s.edgeCount := rfl
@[simp] theorem bindTransport_received (s : State) : s.bindTransport.received = s.received := rfl

@[simp] theorem cacheVolume_bound (v : Byte) (s : State) : (s.cacheVolume v).bound = s.bound := rfl
@[simp] theorem cacheVolume_volCache (v : Byte) (s : State) : (s.cacheVolume v).volCache = v := rfl
@[simp] theorem cacheVolume_st (v : Byte) (s : State) : (s.cacheVolume v).st = s.st := rfl
@[simp] theorem cacheVolume_opQ (v : Byte) (s : State) : (s.cacheVolume v).opQ = s.opQ := rfl
@[simp] theorem cacheVolume_buf (v : Byte) (s : State) : (s.cacheVolume v).buf = s.buf := rfl
@[simp] theorem cacheVolume_idx (v : Byte) (s : State) : (s.cacheVolume v).idx = s.idx := rfl
@[simp] theorem cacheVolume_cnt (v : Byte) (s : State) : (s.cacheVolume v).cnt = s.cnt := rfl
@[simp] theorem cacheVolume_respErr (v : Byte) (s : State) : (s.cacheVolume v).respErr = s.respErr := rfl
@[simp] theorem cacheVolume_respBool (v : Byte) (s : State) : (s.cacheVolume v).respBool = s.respBool := rfl
@[simp] theorem cacheVolume_done (v : Byte) (s : State) : (s.cacheVolume v).done = s.done := rfl
@[simp] theorem cacheVolume_params (v : Byte) (s : State) : (s.cacheVolume v).params = s.params := rfl
@[simp] theorem cacheVolume_port (v : Byte) (s : State) : (s.cacheVolume v).port = s.port := rfl
@[simp] theorem cacheVolume_env (v : Byte) (s : State) : (s.cacheVolume v).env = s.env := rfl
@[simp] theorem cacheVolume_edgeCount (v : Byte) (s : State) : (s.cacheVolume v).edgeCount = s.edgeCount := rfl
@[simp] theorem cacheVolume_received (v : Byte) (s : State) : (s.cacheVolume v).received = s.received := rfl

@[simp] theorem startFrame_bound (op : OpCode) (o : FrameOperands) (s : State) : (startFrame op o s).bound = s.bound := rfl
@[simp] theorem startFrame_volCache (op : OpCode) (o : FrameOperands) (s : State) : (startFrame op o s).volCache = s.volCache := rfl
@[simp] theorem startFrame_st (op : OpCode) (o : FrameOperands) (s : State) : (startFrame op o s).st = .send := rfl
@[simp] theorem startFrame_opQ (op : OpCode) (o : FrameOperands) (s : State) : (startFrame op o s).opQ = op := rfl
@[simp] theorem startFrame_buf (op : OpCode) (o : FrameOperands) (s : State) : (startFrame op o s).buf = o.frame := rfl
@[simp] theorem startFrame_idx (op : OpCode) (o : FrameOperands) (s : State) : (startFrame op o s).idx = 0 := rfl
@[simp] theorem startFrame_cnt (op : OpCode) (o : FrameOperands) (s : State) : (startFrame op o s).cnt = s.cnt := rfl
@[simp] theorem startFrame_respErr (op : OpCode) (o : FrameOperands) (s : State) : (startFrame op o s).respErr = s.respErr := rfl
@[simp] theorem startFrame_respBool (op : OpCode) (o : FrameOperands) (s : State) : (startFrame op o s).respBool = s.respBool := rfl
@[simp] theorem startFrame_done (op : OpCode) (o : FrameOperands) (s : State) : (startFrame op o s).done = s.done := rfl
@[simp] theorem startFrame_params (op : OpCode) (o : FrameOperands) (s : State) : (startFrame op o s).params = s.params := rfl
@[simp] theorem startFrame_port (op : OpCode) (o : FrameOperands) (s : State) : (startFrame op o s).port = s.port := rfl
@[simp] theorem startFrame_env (op : OpCode) (o : FrameOperands) (s : State) : (startFrame op o s).env = s.env := rfl
@[simp] theorem startFrame_edgeCount (op : OpCode) (o : FrameOperands) (s : State) : (startFrame op o s).edgeCount = s.edgeCount := rfl
@[simp] theorem startFrame_received (op : OpCode) (o : FrameOperands) (s : State) : (startFrame op o s).received = s.received := rfl

@[simp] theorem releaseSender_bound (s : State) : s.releaseSender.bound = s.bound := rfl
@[simp] theorem releaseSender_volCache (s : State) : s.releaseSender.volCache = s.volCache := rfl
@[simp] theorem releaseSender_st (s : State) : s.releaseSender.st = s.st := rfl
@[simp] theorem releaseSender_opQ (s : State) : s.releaseSender.opQ = Config.freeOpQ s.edgeCount := rfl
@[simp] theorem releaseSender_buf (s : State) : s.releaseSender.buf = Config.freeBuf s.edgeCount := rfl
@[simp] theorem releaseSender_idx (s : State) : s.releaseSender.idx = Config.freeIdx s.edgeCount := rfl
@[simp] theorem releaseSender_cnt (s : State) : s.releaseSender.cnt = s.cnt := rfl
@[simp] theorem releaseSender_respErr (s : State) : s.releaseSender.respErr = s.respErr := rfl
@[simp] theorem releaseSender_respBool (s : State) : s.releaseSender.respBool = s.respBool := rfl
@[simp] theorem releaseSender_done (s : State) : s.releaseSender.done = s.done := rfl
@[simp] theorem releaseSender_params (s : State) : s.releaseSender.params = s.params := rfl
@[simp] theorem releaseSender_port (s : State) : s.releaseSender.port = s.port := rfl
@[simp] theorem releaseSender_env (s : State) : s.releaseSender.env = s.env := rfl
@[simp] theorem releaseSender_edgeCount (s : State) : s.releaseSender.edgeCount = s.edgeCount := rfl
@[simp] theorem releaseSender_received (s : State) : s.releaseSender.received = s.received := rfl

@[simp] theorem transferByte_bound (s : State) : s.transferByte.bound = s.bound := rfl
@[simp] theorem transferByte_volCache (s : State) : s.transferByte.volCache = s.volCache := rfl
@[simp] theorem transferByte_st (s : State) : s.transferByte.st = s.st := rfl
@[simp] theorem transferByte_opQ (s : State) : s.transferByte.opQ = s.opQ := rfl
@[simp] theorem transferByte_buf (s : State) : s.transferByte.buf = s.buf := rfl
@[simp] theorem transferByte_idx (s : State) : s.transferByte.idx = s.idx := rfl
@[simp] theorem transferByte_cnt (s : State) : s.transferByte.cnt = s.cnt := rfl
@[simp] theorem transferByte_respErr (s : State) : s.transferByte.respErr = s.respErr := rfl
@[simp] theorem transferByte_respBool (s : State) : s.transferByte.respBool = s.respBool := rfl
@[simp] theorem transferByte_done (s : State) : s.transferByte.done = s.done := rfl
@[simp] theorem transferByte_params (s : State) : s.transferByte.params = s.params := rfl
@[simp] theorem transferByte_port (s : State) : s.transferByte.port = s.port := rfl
@[simp] theorem transferByte_env (s : State) : s.transferByte.env = s.env := rfl
@[simp] theorem transferByte_edgeCount (s : State) : s.transferByte.edgeCount = s.edgeCount := rfl
@[simp] theorem transferByte_received (s : State) : s.transferByte.received = s.received ++ [frameByte s.buf s.idx] := rfl

@[simp] theorem nextByte_bound (s : State) : s.nextByte.bound = s.bound := rfl
@[simp] theorem nextByte_volCache (s : State) : s.nextByte.volCache = s.volCache := rfl
@[simp] theorem nextByte_st (s : State) : s.nextByte.st = s.st := rfl
@[simp] theorem nextByte_opQ (s : State) : s.nextByte.opQ = s.opQ := rfl
@[simp] theorem nextByte_buf (s : State) : s.nextByte.buf = s.buf := rfl
@[simp] theorem nextByte_idx (s : State) : s.nextByte.idx = s.idx + 1 := rfl
@[simp] theorem nextByte_cnt (s : State) : s.nextByte.cnt = s.cnt := rfl
@[simp] theorem nextByte_respErr (s : State) : s.nextByte.respErr = s.respErr := rfl
@[simp] theorem nextByte_respBool (s : State) : s.nextByte.respBool = s.respBool := rfl
@[simp] theorem nextByte_done (s : State) : s.nextByte.done = s.done := rfl
@[simp] theorem nextByte_params (s : State) : s.nextByte.params = s.params := rfl
@[simp] theorem nextByte_port (s : State) : s.nextByte.port = s.port := rfl
@[simp] theorem nextByte_env (s : State) : s.nextByte.env = s.env := rfl
@[simp] theorem nextByte_edgeCount (s : State) : s.nextByte.edgeCount = s.edgeCount := rfl
@[simp] theorem nextByte_received (s : State) : s.nextByte.received = s.received := rfl

@[simp] theorem enterWait_bound (s : State) : s.enterWait.bound = s.bound := rfl
@[simp] theorem enterWait_volCache (s : State) : s.enterWait.volCache = s.volCache := rfl
@[simp] theorem enterWait_st (s : State) : s.enterWait.st = .wait := rfl
@[simp] theorem enterWait_opQ (s : State) : s.enterWait.opQ = s.opQ := rfl
@[simp] theorem enterWait_buf (s : State) : s.enterWait.buf = s.buf := rfl
@[simp] theorem enterWait_idx (s : State) : s.enterWait.idx = s.idx := rfl
@[simp] theorem enterWait_cnt (s : State) : s.enterWait.cnt = 0 := rfl
@[simp] theorem enterWait_respErr (s : State) : s.enterWait.respErr = s.respErr := rfl
@[simp] theorem enterWait_respBool (s : State) : s.enterWait.respBool = s.respBool := rfl
@[simp] theorem enterWait_done (s : State) : s.enterWait.done = s.done := rfl
@[simp] theorem enterWait_params (s : State) : s.enterWait.params = s.params := rfl
@[simp] theorem enterWait_port (s : State) : s.enterWait.port = s.port := rfl
@[simp] theorem enterWait_env (s : State) : s.enterWait.env = s.env := rfl
@[simp] theorem enterWait_edgeCount (s : State) : s.enterWait.edgeCount = s.edgeCount := rfl
@[simp] theorem enterWait_received (s : State) : s.enterWait.received = s.received := rfl

@[simp] theorem countTick_bound (s : State) : s.countTick.bound = s.bound := rfl
@[simp] theorem countTick_volCache (s : State) : s.countTick.volCache = s.volCache := rfl
@[simp] theorem countTick_st (s : State) : s.countTick.st = s.st := rfl
@[simp] theorem countTick_opQ (s : State) : s.countTick.opQ = s.opQ := rfl
@[simp] theorem countTick_buf (s : State) : s.countTick.buf = s.buf := rfl
@[simp] theorem countTick_idx (s : State) : s.countTick.idx = s.idx := rfl
@[simp] theorem countTick_cnt (s : State) : s.countTick.cnt = s.cnt + 1 := rfl
@[simp] theorem countTick_respErr (s : State) : s.countTick.respErr = s.respErr := rfl
@[simp] theorem countTick_respBool (s : State) : s.countTick.respBool = s.respBool := rfl
@[simp] theorem countTick_done (s : State) : s.countTick.done = s.done := rfl
@[simp] theorem countTick_params (s : State) : s.countTick.params = s.params := rfl
@[simp] theorem countTick_port (s : State) : s.countTick.port = s.port := rfl
@[simp] theorem countTick_env (s : State) : s.countTick.env = s.env := rfl
@[simp] theorem countTick_edgeCount (s : State) : s.countTick.edgeCount = s.edgeCount := rfl
@[simp] theorem countTick_received (s : State) : s.countTick.received = s.received := rfl

@[simp] theorem completeFrame_bound (e : RespErr) (b : Bool) (s : State) : (completeFrame e b s).bound = s.bound := rfl
@[simp] theorem completeFrame_volCache (e : RespErr) (b : Bool) (s : State) : (completeFrame e b s).volCache = s.volCache := rfl
@[simp] theorem completeFrame_st (e : RespErr) (b : Bool) (s : State) : (completeFrame e b s).st = .idle := rfl
@[simp] theorem completeFrame_opQ (e : RespErr) (b : Bool) (s : State) : (completeFrame e b s).opQ = Config.freeOpQ s.edgeCount := rfl
@[simp] theorem completeFrame_buf (e : RespErr) (b : Bool) (s : State) : (completeFrame e b s).buf = Config.freeBuf s.edgeCount := rfl
@[simp] theorem completeFrame_idx (e : RespErr) (b : Bool) (s : State) : (completeFrame e b s).idx = Config.freeIdx s.edgeCount := rfl
@[simp] theorem completeFrame_cnt (e : RespErr) (b : Bool) (s : State) : (completeFrame e b s).cnt = s.cnt := rfl
@[simp] theorem completeFrame_respErr (e : RespErr) (b : Bool) (s : State) : (completeFrame e b s).respErr = e := rfl
@[simp] theorem completeFrame_respBool (e : RespErr) (b : Bool) (s : State) : (completeFrame e b s).respBool = b := rfl
@[simp] theorem completeFrame_done (e : RespErr) (b : Bool) (s : State) : (completeFrame e b s).done = true := rfl
@[simp] theorem completeFrame_params (e : RespErr) (b : Bool) (s : State) : (completeFrame e b s).params = s.params := rfl
@[simp] theorem completeFrame_port (e : RespErr) (b : Bool) (s : State) : (completeFrame e b s).port = s.port := rfl
@[simp] theorem completeFrame_env (e : RespErr) (b : Bool) (s : State) : (completeFrame e b s).env = s.env := rfl
@[simp] theorem completeFrame_edgeCount (e : RespErr) (b : Bool) (s : State) : (completeFrame e b s).edgeCount = s.edgeCount := rfl
@[simp] theorem completeFrame_received (e : RespErr) (b : Bool) (s : State) : (completeFrame e b s).received = s.received := rfl

@[simp] theorem resetEdge_bound (s : State) : (resetEdge s).bound = false := rfl
@[simp] theorem resetEdge_volCache (s : State) : (resetEdge s).volCache = Config.volDefault := rfl
@[simp] theorem resetEdge_st (s : State) : (resetEdge s).st = .idle := rfl
@[simp] theorem resetEdge_opQ (s : State) : (resetEdge s).opQ = Config.freeOpQ s.edgeCount := rfl
@[simp] theorem resetEdge_buf (s : State) : (resetEdge s).buf = Config.freeBuf s.edgeCount := rfl
@[simp] theorem resetEdge_idx (s : State) : (resetEdge s).idx = 0 := rfl
@[simp] theorem resetEdge_cnt (s : State) : (resetEdge s).cnt = 0 := rfl
@[simp] theorem resetEdge_respErr (s : State) : (resetEdge s).respErr = .ok := rfl
@[simp] theorem resetEdge_respBool (s : State) : (resetEdge s).respBool = false := rfl
@[simp] theorem resetEdge_done (s : State) : (resetEdge s).done = false := rfl
@[simp] theorem resetEdge_params (s : State) : (resetEdge s).params = s.params := rfl
@[simp] theorem resetEdge_port (s : State) : (resetEdge s).port = s.port := rfl
@[simp] theorem resetEdge_env (s : State) : (resetEdge s).env = s.env := rfl
@[simp] theorem resetEdge_edgeCount (s : State) : (resetEdge s).edgeCount = s.edgeCount := rfl
@[simp] theorem resetEdge_received (s : State) : (resetEdge s).received = s.received := rfl

@[simp] theorem withPort_bound (p : Ports) (s : State) : (s.withPort p).bound = s.bound := rfl
@[simp] theorem withPort_volCache (p : Ports) (s : State) : (s.withPort p).volCache = s.volCache := rfl
@[simp] theorem withPort_st (p : Ports) (s : State) : (s.withPort p).st = s.st := rfl
@[simp] theorem withPort_opQ (p : Ports) (s : State) : (s.withPort p).opQ = s.opQ := rfl
@[simp] theorem withPort_buf (p : Ports) (s : State) : (s.withPort p).buf = s.buf := rfl
@[simp] theorem withPort_idx (p : Ports) (s : State) : (s.withPort p).idx = s.idx := rfl
@[simp] theorem withPort_cnt (p : Ports) (s : State) : (s.withPort p).cnt = s.cnt := rfl
@[simp] theorem withPort_respErr (p : Ports) (s : State) : (s.withPort p).respErr = s.respErr := rfl
@[simp] theorem withPort_respBool (p : Ports) (s : State) : (s.withPort p).respBool = s.respBool := rfl
@[simp] theorem withPort_done (p : Ports) (s : State) : (s.withPort p).done = s.done := rfl
@[simp] theorem withPort_params (p : Ports) (s : State) : (s.withPort p).params = s.params := rfl
@[simp] theorem withPort_port (p : Ports) (s : State) : (s.withPort p).port = p := rfl
@[simp] theorem withPort_env (p : Ports) (s : State) : (s.withPort p).env = s.env := rfl
@[simp] theorem withPort_edgeCount (p : Ports) (s : State) : (s.withPort p).edgeCount = s.edgeCount := rfl
@[simp] theorem withPort_received (p : Ports) (s : State) : (s.withPort p).received = s.received := rfl

@[simp] theorem advance_bound (s : State) : (advance s).bound = s.bound := by
  unfold advance; split <;> rfl
@[simp] theorem advance_volCache (s : State) : (advance s).volCache = s.volCache := by
  unfold advance; split <;> rfl
@[simp] theorem advance_st (s : State) : (advance s).st = s.st := by
  unfold advance; split <;> rfl
@[simp] theorem advance_opQ (s : State) : (advance s).opQ = s.opQ := by
  unfold advance; split <;> rfl
@[simp] theorem advance_buf (s : State) : (advance s).buf = s.buf := by
  unfold advance; split <;> rfl
@[simp] theorem advance_idx (s : State) : (advance s).idx = s.idx := by
  unfold advance; split <;> rfl
@[simp] theorem advance_cnt (s : State) : (advance s).cnt = s.cnt := by
  unfold advance; split <;> rfl
@[simp] theorem advance_respErr (s : State) : (advance s).respErr = s.respErr := by
  unfold advance; split <;> rfl
@[simp] theorem advance_respBool (s : State) : (advance s).respBool = s.respBool := by
  unfold advance; split <;> rfl
@[simp] theorem advance_done (s : State) : (advance s).done = s.done := by
  unfold advance; split <;> rfl
@[simp] theorem advance_params (s : State) : (advance s).params = s.params := by
  unfold advance; split <;> rfl
@[simp] theorem advance_received (s : State) : (advance s).received = s.received := by
  unfold advance; split <;> rfl
@[simp] theorem advance_edgeCount (s : State) : (advance s).edgeCount = s.edgeCount + 1 := by
  unfold advance; split <;> rfl

theorem advance_of_env_nil {s : State} (h : s.env = []) :
    advance s = { s with port := Ports.free s.edgeCount, edgeCount := s.edgeCount + 1 } := by
  simp [advance, h]

theorem advance_of_env_cons {s : State} {p : Ports} {ps : List Ports} (h : s.env = p :: ps) :
    advance s = { s with port := p, env := ps, edgeCount := s.edgeCount + 1 } := by
  simp [advance, h]

/-- The levels of `port` before an advance do not matter after it. -/
theorem advance_withPort (p : Ports) (s : State) : advance (s.withPort p) = advance s := by
  unfold advance State.withPort; cases s.env <;> rfl

end Sys2Proof.Machine
end

