-- ==== Sys2Proof/Laws/Ops.lean ====
section
/-! SUPPORT. One lemma for each shared operation, saying once what it can do, and the edge function by cases. -/

namespace Sys2Proof.Machine

/-! ## Performing a request -/

theorem performRequest_idle {a f : State → State} {w : State → Result} {s : State} (h : s.st = .idle) :
    performRequest a f w s = .next (a s.clearDone) := by
  simp [performRequest, h]

theorem performRequest_send {a f : State → State} {w : State → Result} {s : State} (h : s.st = .send) :
    performRequest a f w s = .next (sendEdge f s.clearDone) := by
  simp [performRequest, h]

theorem performRequest_wait {a f : State → State} {w : State → Result} {s : State} (h : s.st = .wait) :
    performRequest a f w s = w s.clearDone := by
  simp [performRequest, h]

/-! ## The acceptance operations -/

theorem raise_eq (e : RespErr) (s : State) :
    raise e s = { s with respErr := e, respBool := false, st := .idle, done := true } := rfl

theorem sendCommand_of_bound {op : OpCode} {o : FrameOperands} {s : State} (h : s.bound = true) :
    sendCommand op o s = startFrame op o s := by
  simp [sendCommand, h]

theorem sendCommand_of_unbound {op : OpCode} {o : FrameOperands} {s : State} (h : s.bound = false) :
    sendCommand op o s = raise .notInit s := by
  simp [sendCommand, h]

theorem acceptIsplaying_of_named {n : Word16} {s : State} (h : n.toNat < s.params.numLines) :
    acceptIsplaying n s = complete .ok (!s.port.lineIn.testBit n.toNat) s := by
  simp [acceptIsplaying, namesLine, lineLevel, h]

theorem acceptIsplaying_of_unnamed {n : Word16} {s : State} (h : s.params.numLines ≤ n.toNat) :
    acceptIsplaying n s = raise .badLine s := by
  simp [acceptIsplaying, namesLine, Nat.not_lt.mpr h]

/-! ## An edge in SEND -/

/-- Everything an edge in SEND can do (R41). -/
theorem sendEdge_cases (f : State → State) (s : State) :
    (s.port.txFault = true ∧ sendEdge f s = completeFrame .txFault false s) ∨
    (s.port.txFault = false ∧ s.port.txReady = true ∧ s.idx.val < 9 ∧
      sendEdge f s = s.transferByte.nextByte) ∨
    (s.port.txFault = false ∧ s.port.txReady = true ∧ s.idx = 9 ∧ sendEdge f s = f s.transferByte) ∨
    (s.port.txFault = false ∧ s.port.txReady = false ∧ sendEdge f s = s) := by
  rcases hf : s.port.txFault with _ | _
  · rcases hr : s.port.txReady with _ | _
    · simp [sendEdge, hf, hr]
    · by_cases hi : s.idx.val < 9
      · exact .inr (.inl ⟨rfl, rfl, hi, by simp [sendEdge, hf, hr, hi]⟩)
      · have hlt := s.idx.isLt
        have h9 : s.idx = 9 := Fin.ext (by change s.idx.val = 9; omega)
        exact .inr (.inr (.inl ⟨rfl, rfl, h9, by simp [sendEdge, hf, hr, hi]⟩))
  · simp [sendEdge, hf]

theorem sendEdge_of_fault {f : State → State} {s : State} (hf : s.port.txFault = true) :
    sendEdge f s = completeFrame .txFault false s := by
  simp [sendEdge, hf]

theorem sendEdge_of_byte {f : State → State} {s : State} (hf : s.port.txFault = false) (hy : s.port.txReady = true)
    (hi : s.idx.val < 9) : sendEdge f s = s.transferByte.nextByte := by
  simp [sendEdge, hf, hy, hi]

theorem sendEdge_of_last {f : State → State} {s : State} (hf : s.port.txFault = false) (hy : s.port.txReady = true)
    (hi : s.idx = 9) : sendEdge f s = f s.transferByte := by
  simp [sendEdge, hf, hy, hi]

theorem sendEdge_of_stall {f : State → State} {s : State} (hf : s.port.txFault = false)
    (hy : s.port.txReady = false) : sendEdge f s = s := by
  simp [sendEdge, hf, hy]

/-! ## The wait -/

theorem waitEdge_of_no_tick {n : Word16} {f : State → State} {s : State} (ht : s.port.unitTick = false) :
    waitEdge n f s = .next s := by
  simp [waitEdge, ht]

theorem waitEdge_of_tick {n : Word16} {f : State → State} {s : State} (ht : s.port.unitTick = true)
    (hc : s.cnt.toNat + 1 < n.toNat) : waitEdge n f s = .next s.countTick := by
  simp [waitEdge, ht, hc]

theorem waitEdge_of_last_tick {n : Word16} {f : State → State} {s : State} (ht : s.port.unitTick = true)
    (hc : s.cnt.toNat + 1 = n.toNat) : waitEdge n f s = .next (f s) := by
  simp [waitEdge, ht, hc]

theorem countTick_cnt_toNat {s : State} {n : Word16} (hc : s.cnt.toNat + 1 < n.toNat) :
    s.countTick.cnt.toNat = s.cnt.toNat + 1 := by
  have hn := n.isLt
  simp only [State.countTick, BitVec.toNat_add]
  change (s.cnt.toNat + 1) % 2 ^ 16 = s.cnt.toNat + 1
  omega

theorem beginWait_zero {n : Word16} {f : State → State} {s : State} (h : n.toNat = 0) : beginWait n f s = f s := by
  simp [beginWait, h]

theorem beginWait_pos {n : Word16} {f : State → State} {s : State} (h : n.toNat ≠ 0) :
    beginWait n f s = s.enterWait := by
  simp [beginWait, h]

/-- Everything an edge in WAIT that answers a next state can do (R43). -/
theorem waitEdge_next {n : Word16} {f : State → State} {s t : State} (h : waitEdge n f s = .next t) :
    (s.port.unitTick = false ∧ t = s) ∨
    (s.port.unitTick = true ∧ s.cnt.toNat + 1 < n.toNat ∧ t = s.countTick) ∨
    (s.port.unitTick = true ∧ s.cnt.toNat + 1 = n.toNat ∧ t = f s) := by
  unfold waitEdge at h
  split at h
  next ht =>
    split at h
    next hlt => exact .inr (.inl ⟨ht, hlt, by simpa using h.symm⟩)
    next =>
      split at h
      next heq => exact .inr (.inr ⟨ht, heq, by simpa using h.symm⟩)
      next => cases h
  next ht => exact .inl ⟨by simpa using ht, by simpa using h.symm⟩

theorem waitEdgeWithoutDelay_next {s t : State} (h : waitEdgeWithoutDelay s = .next t) :
    s.port.unitTick = false ∧ t = s := by
  unfold waitEdgeWithoutDelay at h
  split at h
  next => cases h
  next ht => exact ⟨by simpa using ht, by simpa using h.symm⟩

/-! ## A request in progress: SEND and WAIT depend on the op code alone -/

/-- What follows the frame of a request with op code `op` (R42, R43). -/
def finishOfOp (op : OpCode) : State → State :=
  if op = 0x9 then finishSdready else completeFrame .ok false

/-- What the edge that transfers byte 9 does under op code `op` (R42). -/
def afterFrameOfOp (prm : Config.Params) (op : OpCode) : State → State :=
  match delayOfOp prm op with
  | some n => beginWait n (finishOfOp op)
  | none => completeFrame .ok false

/-- What an edge in WAIT does under op code `op` (R43). -/
def waitEdgeOfOp (prm : Config.Params) (op : OpCode) : State → Result :=
  match delayOfOp prm op with
  | some n => waitEdge n (finishOfOp op)
  | none => waitEdgeWithoutDelay

/-- The Boolean result under op code `op`: SDREADY's sample, 0 for every other (R29, R43). -/
def resultOfOp (op : OpCode) (s : State) : Bool := decide (op = 0x9) && s.port.rxAvail

theorem finishOfOp_eq (op : OpCode) (s : State) : finishOfOp op s = completeFrame .ok (resultOfOp op s) s := by
  unfold finishOfOp resultOfOp
  split
  next h => rw [decide_eq_true h, Bool.true_and]; rfl
  next h => rw [decide_eq_false h, Bool.false_and]

/-- Only SDREADY's op code has a result that can be 1, and it has a delay. -/
theorem resultOfOp_of_no_delay {prm : Config.Params} {op : OpCode} (h : delayOfOp prm op = none) (s : State) :
    resultOfOp op s = false := by
  have : op ≠ 0x9 := by rintro rfl; simp [delayOfOp] at h
  rw [resultOfOp, decide_eq_false this, Bool.false_and]

/-- Everything that can follow the frame (R42): the request ends with OK, or its wait begins. -/
theorem afterFrameOfOp_cases (prm : Config.Params) (op : OpCode) (s : State) :
    ((delayOfOp prm op = none ∨ delayOfOp prm op = some 0) ∧
      afterFrameOfOp prm op s = completeFrame .ok (resultOfOp op s) s) ∨
    ∃ n, delayOfOp prm op = some n ∧ n.toNat ≠ 0 ∧ afterFrameOfOp prm op s = s.enterWait := by
  unfold afterFrameOfOp
  rcases hd : delayOfOp prm op with _ | n
  · exact .inl ⟨.inl rfl, by simp [resultOfOp_of_no_delay hd]⟩
  · by_cases hn : n.toNat = 0
    · refine .inl ⟨.inr (congrArg some (BitVec.eq_of_toNat_eq hn)), ?_⟩
      rw [← finishOfOp_eq]
      exact beginWait_zero hn
    · exact .inr ⟨n, rfl, hn, beginWait_pos hn⟩

theorem waitEdgeOfOp_of_no_tick {prm : Config.Params} {op : OpCode} {s : State} (ht : s.port.unitTick = false) :
    waitEdgeOfOp prm op s = .next s := by
  unfold waitEdgeOfOp
  rcases delayOfOp prm op with _ | n
  · simp [waitEdgeWithoutDelay, ht]
  · exact waitEdge_of_no_tick ht

theorem waitEdgeOfOp_of_tick {prm : Config.Params} {op : OpCode} {n : Word16} {s : State}
    (hd : delayOfOp prm op = some n) (ht : s.port.unitTick = true) (hc : s.cnt.toNat + 1 < n.toNat) :
    waitEdgeOfOp prm op s = .next s.countTick := by
  simp only [waitEdgeOfOp, hd, waitEdge_of_tick ht hc]

theorem waitEdgeOfOp_of_last_tick {prm : Config.Params} {op : OpCode} {n : Word16} {s : State}
    (hd : delayOfOp prm op = some n) (ht : s.port.unitTick = true) (hc : s.cnt.toNat + 1 = n.toNat) :
    waitEdgeOfOp prm op s = .next (completeFrame .ok (resultOfOp op s) s) := by
  simp only [waitEdgeOfOp, hd, waitEdge_of_last_tick ht hc, finishOfOp_eq]

/-- Everything an edge in WAIT that answers a next state can do (R43), by op code. -/
theorem waitEdgeOfOp_next {prm : Config.Params} {op : OpCode} {s t : State} (h : waitEdgeOfOp prm op s = .next t) :
    (s.port.unitTick = false ∧ t = s) ∨
    ∃ n, delayOfOp prm op = some n ∧ s.port.unitTick = true ∧
      ((s.cnt.toNat + 1 < n.toNat ∧ t = s.countTick) ∨
        (s.cnt.toNat + 1 = n.toNat ∧ t = completeFrame .ok (resultOfOp op s) s)) := by
  unfold waitEdgeOfOp at h
  rcases hd : delayOfOp prm op with _ | n
  · rw [hd] at h
    exact .inl (waitEdgeWithoutDelay_next h)
  · rw [hd] at h
    rcases waitEdge_next h with h0 | ⟨ht, hc, rfl⟩ | ⟨ht, hc, rfl⟩
    · exact .inl h0
    · exact .inr ⟨n, rfl, ht, .inl ⟨hc, rfl⟩⟩
    · exact .inr ⟨n, rfl, ht, .inr ⟨hc, finishOfOp_eq op s⟩⟩

/-- Op codes from 0xC on have no delay, so the two reserved rows behave alike. -/
theorem delayOfOp_reserved (prm : Config.Params) {op : OpCode} (h : 12 ≤ op.toNat) : delayOfOp prm op = none := by
  unfold delayOfOp
  split <;> simp_all

theorem exec_send {i : Instr} {s : State} (hw : i.wellFormed = true) (h : s.st = .send) :
    exec i s = .next (sendEdge (afterFrameOfOp s.params i.op) s.clearDone) := by
  cases i with
  | reservedHigh op =>
    have hop : 12 ≤ op.toNat := by simpa [Instr.wellFormed] using hw
    simp [exec, execReservedHigh, performRequest_send h, afterFrameOfOp, Instr.op, delayOfOp_reserved _ hop]
  | frame => exact performRequest_send h
  | init => simp [exec, execInit, performRequest_send h]; rfl
  | setvol => simp [exec, execSetvol, performRequest_send h]; rfl
  | play => exact performRequest_send h
  | playf => exact performRequest_send h
  | announce => exact performRequest_send h
  | pause => exact performRequest_send h
  | resume => exact performRequest_send h
  | stop => exact performRequest_send h
  | sdready => exact performRequest_send h
  | isplaying => exact performRequest_send h
  | reservedB => exact performRequest_send h

theorem exec_wait {i : Instr} {s : State} (hw : i.wellFormed = true) (h : s.st = .wait) :
    exec i s = waitEdgeOfOp s.params i.op s.clearDone := by
  cases i with
  | reservedHigh op =>
    have hop : 12 ≤ op.toNat := by simpa [Instr.wellFormed] using hw
    simp [exec, execReservedHigh, performRequest_wait h, waitEdgeOfOp, Instr.op, delayOfOp_reserved _ hop]
  | frame => exact performRequest_wait h
  | init => simp [exec, execInit, performRequest_wait h]; rfl
  | setvol => simp [exec, execSetvol, performRequest_wait h]; rfl
  | play => exact performRequest_wait h
  | playf => exact performRequest_wait h
  | announce => exact performRequest_wait h
  | pause => exact performRequest_wait h
  | resume => exact performRequest_wait h
  | stop => exact performRequest_wait h
  | sdready => exact performRequest_wait h
  | isplaying => exact performRequest_wait h
  | reservedB => exact performRequest_wait h

/-! ## The acceptance of a request -/

/-- What acceptance writes before the frame: `bound` for INIT, `vol_cache` for SETVOL (R40 step 4). -/
def acceptanceWrites (i : Instr) (s : State) : State :=
  match i with
  | .init => s.bindTransport
  | .setvol v => s.cacheVolume (clampVol v)
  | .frame _ _ | .play _ | .playf _ _ | .announce _ | .pause | .resume | .stop | .sdready => s
  | .isplaying _ | .reservedB | .reservedHigh _ => s

theorem acceptanceWrites_bound (i : Instr) (s : State) :
    (acceptanceWrites i s).bound = if i = .init then true else s.bound := by
  cases i <;> simp [acceptanceWrites]

theorem acceptanceWrites_setvol_volCache (v : Word16) (s : State) :
    (acceptanceWrites (.setvol v) s).volCache = clampVol v := rfl

theorem acceptanceWrites_volCache {i : Instr} (h : ∀ v, i ≠ .setvol v) (s : State) :
    (acceptanceWrites i s).volCache = s.volCache := by
  cases i <;> first | rfl | exact absurd rfl (h _)

@[simp] theorem acceptanceWrites_st (i : Instr) (s : State) : (acceptanceWrites i s).st = s.st := by
  cases i <;> rfl

@[simp] theorem acceptanceWrites_opQ (i : Instr) (s : State) : (acceptanceWrites i s).opQ = s.opQ := by
  cases i <;> rfl

@[simp] theorem acceptanceWrites_buf (i : Instr) (s : State) : (acceptanceWrites i s).buf = s.buf := by
  cases i <;> rfl

@[simp] theorem acceptanceWrites_idx (i : Instr) (s : State) : (acceptanceWrites i s).idx = s.idx := by
  cases i <;> rfl

@[simp] theorem acceptanceWrites_cnt (i : Instr) (s : State) : (acceptanceWrites i s).cnt = s.cnt := by
  cases i <;> rfl

@[simp] theorem acceptanceWrites_respErr (i : Instr) (s : State) : (acceptanceWrites i s).respErr = s.respErr := by
  cases i <;> rfl

@[simp] theorem acceptanceWrites_respBool (i : Instr) (s : State) : (acceptanceWrites i s).respBool = s.respBool := by
  cases i <;> rfl

@[simp] theorem acceptanceWrites_done (i : Instr) (s : State) : (acceptanceWrites i s).done = s.done := by
  cases i <;> rfl

@[simp] theorem acceptanceWrites_params (i : Instr) (s : State) : (acceptanceWrites i s).params = s.params := by
  cases i <;> rfl

@[simp] theorem acceptanceWrites_port (i : Instr) (s : State) : (acceptanceWrites i s).port = s.port := by
  cases i <;> rfl

@[simp] theorem acceptanceWrites_env (i : Instr) (s : State) : (acceptanceWrites i s).env = s.env := by
  cases i <;> rfl

@[simp] theorem acceptanceWrites_edgeCount (i : Instr) (s : State) : (acceptanceWrites i s).edgeCount = s.edgeCount := by
  cases i <;> rfl

@[simp] theorem acceptanceWrites_received (i : Instr) (s : State) : (acceptanceWrites i s).received = s.received := by
  cases i <;> rfl

/-- A frame request that needs no INIT first: INIT itself, or any once `bound` = 1. -/
theorem exec_idle_starts {i : Instr} {o : FrameOperands} {s : State} (ho : operandsOf i = some o) (h : s.st = .idle)
    (hb : i = .init ∨ s.bound = true) :
    exec i s = .next (startFrame i.op o (acceptanceWrites i s.clearDone)) := by
  cases i <;> simp only [operandsOf, Option.some.injEq, reduceCtorEq] at ho <;> subst ho <;>
    simp [exec, execFrame, execInit, execSetvol, execPlay, execPlayf, execAnnounce, execPause, execResume, execStop,
      execSdready, performRequest_idle h, sendCommand, acceptanceWrites, Instr.op] <;>
    simp_all

/-- A frame request that needs an INIT first completes with NOT_INIT (R175). -/
theorem exec_idle_not_init {i : Instr} {o : FrameOperands} {s : State} (ho : operandsOf i = some o) (h : s.st = .idle)
    (hi : i ≠ .init) (hb : s.bound = false) : exec i s = .next (complete .notInit false s.clearDone) := by
  cases i <;> simp only [operandsOf, Option.some.injEq, reduceCtorEq] at ho <;>
    simp_all [exec, execFrame, execSetvol, execPlay, execPlayf, execAnnounce, execPause, execResume, execStop,
      execSdready, performRequest_idle h, sendCommand, raise]

/-- A request without a frame completes at its acceptance edge (R155, R174). -/
theorem exec_idle_frameless {i : Instr} {s : State} (ho : operandsOf i = none) (h : s.st = .idle) :
    ∃ e b, exec i s = .next (complete e b s.clearDone) ∧ (e = .ok ∨ b = false) := by
  cases i <;> simp only [operandsOf, reduceCtorEq] at ho
  case isplaying n =>
    by_cases hn : n.toNat < s.params.numLines
    · refine ⟨.ok, !s.port.lineIn.testBit n.toNat, ?_, .inl rfl⟩
      simp [exec, execIsplaying, performRequest_idle h, acceptIsplaying_of_named (s := s.clearDone) hn]
    · refine ⟨.badLine, false, ?_, .inr rfl⟩
      simp [exec, execIsplaying, performRequest_idle h,
        acceptIsplaying_of_unnamed (s := s.clearDone) (Nat.not_lt.mp hn), raise]
  case reservedB => exact ⟨.illegal, false, performRequest_idle h, .inr rfl⟩
  case reservedHigh => exact ⟨.illegal, false, performRequest_idle h, .inr rfl⟩

/-- Everything an acceptance edge can do (R40): it starts a frame, or it completes at once. -/
theorem exec_idle_cases (i : Instr) {s : State} (h : s.st = .idle) :
    (∃ o, operandsOf i = some o ∧ (i = .init ∨ s.bound = true) ∧
      exec i s = .next (startFrame i.op o (acceptanceWrites i s.clearDone))) ∨
    ∃ e b, exec i s = .next (complete e b s.clearDone) ∧ (e = .ok ∨ b = false) := by
  rcases ho : operandsOf i with _ | o
  · exact .inr (exec_idle_frameless ho h)
  · by_cases hb : i = .init ∨ s.bound = true
    · exact .inl ⟨o, rfl, hb, exec_idle_starts ho h hb⟩
    · obtain ⟨hi, hb⟩ := not_or.mp hb
      exact .inr ⟨_, _, exec_idle_not_init ho h hi (by simpa using hb), .inr rfl⟩

/-! ## The request in progress and the edge by cases -/

theorem decodeFields_op (op : OpCode) (c : Byte) (p : Word16) : (decodeFields op c p).op = op := by
  revert op
  intro op
  match op with
  | ⟨⟨n, hn⟩⟩ => interval_cases n <;> rfl

theorem decodeFields_wellFormed (op : OpCode) (c : Byte) (p : Word16) : (decodeFields op c p).wellFormed = true := by
  match op with
  | ⟨⟨n, hn⟩⟩ => interval_cases n <;> rfl

theorem edge_reset {s : State} (h : s.port.rst = true) : edge s = .next (resetEdge s) := by
  simp [edge, h]

theorem edge_idle {s : State} (hr : s.port.rst = false) (h : s.st = .idle) (hv : s.port.reqValid = false) :
    edge s = .next (idleEdge s) := by
  simp [edge, hr, h, hv]

theorem edge_accept {s : State} (hr : s.port.rst = false) (h : s.st = .idle) (hv : s.port.reqValid = true) :
    edge s = exec (presented s) s := by
  simp [edge, hr, h, hv]

theorem edge_send {s : State} (hr : s.port.rst = false) (h : s.st = .send) :
    edge s = .next (sendEdge (afterFrameOfOp s.params s.opQ) s.clearDone) := by
  have := exec_send (i := inProgress s) (decodeFields_wellFormed _ _ _) h
  simp only [inProgress, decodeFields_op] at this
  simpa [edge, hr, h, inProgress] using this

theorem edge_wait {s : State} (hr : s.port.rst = false) (h : s.st = .wait) :
    edge s = waitEdgeOfOp s.params s.opQ s.clearDone := by
  have := exec_wait (i := inProgress s) (decodeFields_wellFormed _ _ _) h
  simp only [inProgress, decodeFields_op] at this
  simpa [edge, hr, h, inProgress] using this

theorem step_of_edge_next {s t : State} (h : edge s = .next t) : step s = .next (advance t) := by
  simp [step, h, thenAdvance]

/-- A step that answers a next state is an edge that does, followed by the environment's advance. -/
theorem step_next {s t : State} (h : step s = .next t) : ∃ u, edge s = .next u ∧ t = advance u := by
  unfold step thenAdvance at h
  split at h
  next u hu => exact ⟨u, hu, by simpa using h.symm⟩
  next => cases h
  next => cases h

theorem steps_succ_of_step {n : Nat} {s t : State} (h : step s = .next t) : steps (n + 1) s = steps n t := by
  simp [steps, h]

end Sys2Proof.Machine
end

