-- ==== Sys2Proof/Laws/Edge.lean ====
section
/-! SUPPORT. Everything one edge that answers a next state can do, said once: one case for each clause of R200 and
R40 to R44. Invariants and whole-machine rules are read off these cases. -/

namespace Sys2Proof.Machine

/-- The ways from a state `s` to the state `u` at one edge. -/
inductive EdgeStep (s : State) : State → Prop where
  /-- R200. -/
  | reset (hr : s.port.rst = true) : EdgeStep s (resetEdge s)
  /-- R44. -/
  | idle (hr : s.port.rst = false) (hs : s.st = .idle) (hv : s.port.reqValid = false) : EdgeStep s s.clearDone
  /-- R40 step 4. -/
  | start (hr : s.port.rst = false) (hs : s.st = .idle) (hv : s.port.reqValid = true) (o : FrameOperands)
      (ho : operandsOf (presented s) = some o) (hb : presented s = .init ∨ s.bound = true) :
      EdgeStep s (startFrame (presented s).op o (acceptanceWrites (presented s) s.clearDone))
  /-- R40 steps 1 to 3. -/
  | respond (hr : s.port.rst = false) (hs : s.st = .idle) (hv : s.port.reqValid = true) (e : RespErr) (b : Bool)
      (hb : e = .ok ∨ b = false) : EdgeStep s (complete e b s.clearDone)
  /-- R41, a fault. -/
  | fault (hr : s.port.rst = false) (hs : s.st = .send) (hf : s.port.txFault = true) :
      EdgeStep s (completeFrame .txFault false s.clearDone)
  /-- R41, a byte before the last. -/
  | byte (hr : s.port.rst = false) (hs : s.st = .send) (hf : s.port.txFault = false) (hy : s.port.txReady = true)
      (hi : s.idx.val < 9) : EdgeStep s s.clearDone.transferByte.nextByte
  /-- R42, the last byte of a request that ends with it. -/
  | lastByte (hr : s.port.rst = false) (hs : s.st = .send) (hf : s.port.txFault = false) (hy : s.port.txReady = true)
      (hi : s.idx = 9) (hd : delayOfOp s.params s.opQ = none ∨ delayOfOp s.params s.opQ = some 0) :
      EdgeStep s (completeFrame .ok (resultOfOp s.opQ s) s.clearDone.transferByte)
  /-- R42, the last byte of a request that waits. -/
  | enterWait (hr : s.port.rst = false) (hs : s.st = .send) (hf : s.port.txFault = false)
      (hy : s.port.txReady = true) (hi : s.idx = 9) (n : Word16) (hd : delayOfOp s.params s.opQ = some n)
      (hn : n.toNat ≠ 0) : EdgeStep s s.clearDone.transferByte.enterWait
  /-- R41, a stall. -/
  | stall (hr : s.port.rst = false) (hs : s.st = .send) (hf : s.port.txFault = false) (hy : s.port.txReady = false) :
      EdgeStep s s.clearDone
  /-- R43 without a tick. -/
  | noTick (hr : s.port.rst = false) (hs : s.st = .wait) (ht : s.port.unitTick = false) : EdgeStep s s.clearDone
  /-- R43, a tick before the last. -/
  | tick (hr : s.port.rst = false) (hs : s.st = .wait) (ht : s.port.unitTick = true) (n : Word16)
      (hd : delayOfOp s.params s.opQ = some n) (hc : s.cnt.toNat + 1 < n.toNat) : EdgeStep s s.clearDone.countTick
  /-- R43, the last tick. -/
  | lastTick (hr : s.port.rst = false) (hs : s.st = .wait) (ht : s.port.unitTick = true) (n : Word16)
      (hd : delayOfOp s.params s.opQ = some n) (hc : s.cnt.toNat + 1 = n.toNat) :
      EdgeStep s (completeFrame .ok (resultOfOp s.opQ s) s.clearDone)

theorem edge_next {s u : State} (h : edge s = .next u) : EdgeStep s u := by
  rcases hr : s.port.rst with _ | _
  · rcases hs : s.st with _ | _ | _
    · rcases hv : s.port.reqValid with _ | _
      · rw [edge_idle hr hs hv] at h
        obtain rfl := Host.Outcome.next.inj h
        exact .idle hr hs hv
      · rw [edge_accept hr hs hv] at h
        rcases exec_idle_cases (presented s) hs with ⟨o, ho, hb, he⟩ | ⟨e, b, he, hb⟩ <;> rw [he] at h <;>
          obtain rfl := Host.Outcome.next.inj h
        · exact .start hr hs hv o ho hb
        · exact .respond hr hs hv e b hb
    · rw [edge_send hr hs] at h
      obtain rfl := Host.Outcome.next.inj h
      rcases sendEdge_cases (afterFrameOfOp s.params s.opQ) s.clearDone with
        ⟨hf, e⟩ | ⟨hf, hy, hi, e⟩ | ⟨hf, hy, hi, e⟩ | ⟨hf, hy, e⟩
      · rw [e]; exact .fault hr hs hf
      · rw [e]; exact .byte hr hs hf hy hi
      · rcases afterFrameOfOp_cases s.params s.opQ s.clearDone.transferByte with ⟨hd, e'⟩ | ⟨n, hd, hn, e'⟩
        · rw [e, e']; exact .lastByte hr hs hf hy hi hd
        · rw [e, e']; exact .enterWait hr hs hf hy hi n hd hn
      · rw [e]; exact .stall hr hs hf hy
    · rw [edge_wait hr hs] at h
      rcases waitEdgeOfOp_next h with ⟨ht, rfl⟩ | ⟨n, hd, ht, ⟨hc, rfl⟩ | ⟨hc, rfl⟩⟩
      · exact .noTick hr hs ht
      · exact .tick hr hs ht n hd hc
      · exact .lastTick hr hs ht n hd hc
  · rw [edge_reset hr] at h
    obtain rfl := Host.Outcome.next.inj h
    exact .reset hr

/-- Everything one step that answers a next state can do. -/
theorem step_cases {s t : State} (h : step s = .next t) : ∃ u, EdgeStep s u ∧ t = advance u := by
  obtain ⟨u, hu, rfl⟩ := step_next h
  exact ⟨u, edge_next hu, rfl⟩

end Sys2Proof.Machine
end

