-- ==== Sys2Proof/Laws/PerInstr.lean ====
section
/-! SUPPORT. Facts for each request as syntax. OpField: the op field of the request word of a well-formed request is
its op code (R70, R71). -/

namespace Sys2Proof.Laws

theorem opField_requestWord (op : OpCode) (cmd : Byte) (p : Word16) : opField (requestWord op cmd p) = op := by
  apply BitVec.eq_of_toNat_eq
  have h1 := op.isLt
  have h2 := cmd.isLt
  have h3 := p.isLt
  rw [opField, BitVec.extractLsb'_toNat, requestWord_toNat, Nat.shiftRight_eq_div_pow]
  omega

/-- The op field of the word of a well-formed request is its op code. -/
def OpField.Statement (i : Instr) : Prop := i.wellFormed = true → opField (encode i) = i.op

theorem OpField.frame (c : Byte) (p : Word16) : OpField.Statement (.frame c p) := fun _ => opField_requestWord _ _ _
theorem OpField.init : OpField.Statement .init := fun _ => by decide
theorem OpField.setvol (v : Word16) : OpField.Statement (.setvol v) := fun _ => opField_requestWord _ _ _
theorem OpField.play (t : Word16) : OpField.Statement (.play t) := fun _ => opField_requestWord _ _ _
theorem OpField.playf (d n : Byte) : OpField.Statement (.playf d n) := fun _ => opField_requestWord _ _ _
theorem OpField.announce (t : Word16) : OpField.Statement (.announce t) := fun _ => opField_requestWord _ _ _
theorem OpField.pause : OpField.Statement .pause := fun _ => by decide
theorem OpField.resume : OpField.Statement .resume := fun _ => by decide
theorem OpField.stop : OpField.Statement .stop := fun _ => by decide
theorem OpField.sdready : OpField.Statement .sdready := fun _ => by decide
theorem OpField.isplaying (i : Word16) : OpField.Statement (.isplaying i) := fun _ => opField_requestWord _ _ _
theorem OpField.reservedB : OpField.Statement .reservedB := fun _ => by decide
theorem OpField.reservedHigh (op : OpCode) : OpField.Statement (.reservedHigh op) := fun _ => opField_requestWord _ _ _

end Sys2Proof.Laws
end

