-- ==== Sys2Proof/Tests/Slice0.lean ====
section
/-! SUPPORT. The model's own tests: ill-formed terms, words written out from R70 and R71, the vectors of
95_test_vectors.md on single edges, and for every obligation with hypotheses a state that meets them. -/

namespace Sys2Proof.Tests

open Sys2Proof Sys2Proof.Machine

/-! ## Small states -/

/-- The next state of an outcome, if it is one. -/
def after : Result → Option State
  | .next t => some t
  | .fault _ => none
  | .refused _ => none

/-- An idle block bound to its transport, two lines, waits of 2 units. -/
def boundIdle : State :=
  { State.reset with bound := true, params := { initSettleUnits := 2, queryWaitUnits := 2, numLines := 2 } }

/-- The same block with the frame of `o` in progress at byte `k`. -/
def sending (op : OpCode) (o : FrameOperands) (k : Fin 10) : State :=
  { boundIdle with st := .send, opQ := op, buf := o.frame, idx := k }

/-- The same block in the wait after the frame of `o`, `n` ticks counted. -/
def waiting (op : OpCode) (o : FrameOperands) (n : Word16) : State :=
  { boundIdle with st := .wait, opQ := op, buf := o.frame, idx := 9, cnt := n }

/-- The transport accepts. -/
def ready : Ports := { Ports.quiet with txReady := true }

/-- The transport reports a fault, and is ready too. -/
def faulting : Ports := { Ports.quiet with txReady := true, txFault := true }

/-- A tick of the time base. -/
def ticking : Ports := { Ports.quiet with unitTick := true }

/-- A tick with a received byte available. -/
def tickingAvail : Ports := { Ports.quiet with unitTick := true, rxAvail := true }

/-- A reset edge. -/
def resetting : Ports := { Ports.quiet with rst := true, reqValid := true, txReady := true }

/-- What a test looks at after acceptance: the phase, the frame, `bound` and `vol_cache`. -/
def started (r : Result) : Option (Phase × List Byte × Bool × Byte) :=
  (after r).map fun t => (t.st, frameBytes t.buf, t.bound, t.volCache)

/-- What a test looks at after a completion: phase, `done`, response, `vol_cache`. -/
def answered (r : Result) : Option (Phase × Bool × RespErr × Bool × Byte) :=
  (after r).map fun t => (t.st, t.done, t.respErr, t.respBool, t.volCache)

/-! ## Well-formedness: each check refuses an ill-formed term -/

theorem test_wf_reserved_row : (Instr.reservedHigh 0xB).wellFormed = false := by decide
theorem test_wf_reserved_row_ok : (Instr.reservedHigh 0xC).wellFormed = true := by decide
theorem test_asm_frame_command : assemble (.frame 256 0) = none ∧ (Asm.frame 256 0).wellFormed = false := by decide
theorem test_asm_frame_parameter : assemble (.frame 0 65536) = none ∧ (Asm.frame 0 65536).wellFormed = false := by
  decide
theorem test_asm_setvol : assemble (.setvol 65536) = none ∧ (Asm.setvol 65536).wellFormed = false := by decide
theorem test_asm_play : assemble (.play 65536) = none ∧ (Asm.play 65536).wellFormed = false := by decide
theorem test_asm_playf_folder : assemble (.playf 256 0) = none ∧ (Asm.playf 256 0).wellFormed = false := by decide
theorem test_asm_playf_file : assemble (.playf 0 256) = none ∧ (Asm.playf 0 256).wellFormed = false := by decide
theorem test_asm_announce : assemble (.announce 65536) = none ∧ (Asm.announce 65536).wellFormed = false := by decide
theorem test_asm_isplaying : assemble (.isplaying 65536) = none ∧ (Asm.isplaying 65536).wellFormed = false := by
  decide
theorem test_asm_frame2 : assemble (.frame2 256 0 0) = none ∧ assemble (.frame2 0 256 0) = none ∧
    assemble (.frame2 0 0 256) = none ∧ (Asm.frame2 0 0 256).wellFormed = false := by decide

/-! ## Decoding: words put together bit by bit as R70 and R71 lay them out -/

theorem test_decode_frame : decode 0b0000_00000011_0000000100101100 = .frame 0x03 0x012C := by decide
theorem test_decode_init : decode 0b0001_00000000_0000000000000000 = .init := by decide
theorem test_decode_setvol : decode 0b0010_00000000_0000000000101101 = .setvol 45 := by decide
theorem test_decode_play : decode 0b0011_00000000_0001001000110100 = .play 0x1234 := by decide
theorem test_decode_playf : decode 0b0100_00000000_0000000100000101 = .playf 1 5 := by decide
theorem test_decode_announce : decode 0b0101_00000000_0001001000110100 = .announce 0x1234 := by decide
theorem test_decode_pause : decode 0b0110_10101010_1111111111111111 = .pause := by decide
theorem test_decode_resume : decode 0b0111_00000000_0000000000000000 = .resume := by decide
theorem test_decode_stop : decode 0b1000_00000000_0000000000000000 = .stop := by decide
theorem test_decode_sdready : decode 0b1001_00000000_0000000000000000 = .sdready := by decide
theorem test_decode_isplaying : decode 0b1010_00000000_0000000000000001 = .isplaying 1 := by decide
theorem test_decode_reservedB : decode 0b1011_00000000_0000000000000000 = .reservedB := by decide
theorem test_decode_reservedHigh : decode 0b1111_11111111_1111111111111111 = .reservedHigh 0xF := by decide
theorem test_decode_refuses_wide : decodeTableWord 32 0x10000000 = none := by decide
theorem test_decode_table_word : decodeTableWord 28 0x4000105 = some (.playf 1 5) := by decide

/-! ## The assembler: the words of 95_test_vectors.md -/

theorem test_asm_frame2_word : assembleText "FRAME2 0x12, 0x34, 0x56" = some 0x0123456 := by decide
theorem test_asm_query_word : assembleText "QUERY" = some 0x03F0000 := by decide
theorem test_asm_playf_word : assembleText "PLAYF 16, 1" = some 0x4001001 := by decide
theorem test_asm_setvol_word : assembleText "SETVOL 45" = some 0x200002D := by decide
theorem test_asm_refuses_text : assembleText "SETVOL 65536" = none ∧ assembleText "PLAY" = none ∧
    assembleText "PLAY 1x" = none ∧ assembleText "HALT" = none := by decide

/-! ## The codec: V1, V2, V9 and the printed W1 against its correction -/

theorem test_codec_V1 : frameBytes (buildFrame 0x00 0x00 0x00) =
    [0x7E, 0xFF, 0x06, 0x00, 0x00, 0x00, 0x00, 0xFE, 0xFB, 0xEF] := by decide
theorem test_codec_V2 : frameBytes (buildFrame 0xFF 0xFF 0xFF) =
    [0x7E, 0xFF, 0x06, 0xFF, 0x00, 0xFF, 0xFF, 0xFB, 0xFE, 0xEF] := by decide
theorem test_codec_V9 : frameBytes (buildFrame16 0x80 0x8000) =
    [0x7E, 0xFF, 0x06, 0x80, 0x00, 0x80, 0x00, 0xFD, 0xFB, 0xEF] := by decide
theorem test_receiver_refuses_W1_as_printed :
    receiveFrame [0x7E, 0xFF, 0x06, 0x06, 0x00, 0x00, 0x1E, 0xFE, 0xCB, 0xEF] = none ∧
    receiveFrame [0x7E, 0xFF, 0x06, 0x06, 0x00, 0x00, 0x1E, 0xFE, 0xD7, 0xEF] = some (buildFrame 0x06 0x00 0x1E) := by
  decide

/-! ## Requests, one edge each -/

/-- V3: marker values inside the frame. -/
theorem test_frame_V3 : started (exec (.frame 0x7E 0x7EEF) boundIdle) =
    some (.send, [0x7E, 0xFF, 0x06, 0x7E, 0x00, 0x7E, 0xEF, 0xFD, 0x10, 0xEF], true, 20) := by decide
/-- V5: the SETVOL 30 frame, `vol_cache` unchanged. -/
theorem test_frame_V5 : started (exec (.frame 0x06 0x001E) boundIdle) =
    some (.send, [0x7E, 0xFF, 0x06, 0x06, 0x00, 0x00, 0x1E, 0xFE, 0xD7, 0xEF], true, 20) := by decide
/-- V14, from reset. -/
theorem test_init_V14 : started (exec .init State.reset) =
    some (.send, [0x7E, 0xFF, 0x06, 0x0C, 0x00, 0x00, 0x00, 0xFE, 0xEF, 0xEF], true, 20) := by decide
/-- T2: the tick that makes `cnt + 1` = 2 = n ends the wait; a fault there is ignored (V76). -/
theorem test_init_T2 :
    answered (exec .init ((waiting 0x1 initOperands 1).withPort { ticking with txFault := true })) =
      some (.idle, true, .ok, false, 20) := by decide
/-- V27: no truncation of a large volume. -/
theorem test_setvol_V27 : started (exec (.setvol 256) boundIdle) =
    some (.send, [0x7E, 0xFF, 0x06, 0x06, 0x00, 0x00, 0x1E, 0xFE, 0xD7, 0xEF], true, 30) := by decide
/-- V29: unbound, nothing cached. -/
theorem test_setvol_V29 : answered (exec (.setvol 5) State.reset) = some (.idle, true, .notInit, false, 20) := by
  decide
/-- V34. -/
theorem test_play_V34 : started (exec (.play 0x1234) boundIdle) =
    some (.send, [0x7E, 0xFF, 0x06, 0x03, 0x00, 0x12, 0x34, 0xFE, 0xB2, 0xEF], true, 20) := by decide
/-- V75: a fault wins over `tx_ready` at byte 9, which is not transferred. -/
theorem test_play_V75 :
    (after (exec (.play 1) ((sending 0x3 (playOperands 1) 9).withPort faulting))).map
      (fun t => (t.respErr, t.done, t.received)) = some (.txFault, true, []) := by decide
/-- V36. -/
theorem test_playf_V36 : started (exec (.playf 1 5) boundIdle) =
    some (.send, [0x7E, 0xFF, 0x06, 0x0F, 0x00, 0x01, 0x05, 0xFE, 0xE6, 0xEF], true, 20) := by decide
/-- V42. -/
theorem test_announce_V42 : started (exec (.announce 0x1234) boundIdle) =
    some (.send, [0x7E, 0xFF, 0x06, 0x13, 0x00, 0x12, 0x34, 0xFE, 0xA2, 0xEF], true, 20) := by decide
/-- V44. -/
theorem test_pause_V44 : started (exec .pause boundIdle) =
    some (.send, [0x7E, 0xFF, 0x06, 0x0E, 0x00, 0x00, 0x00, 0xFE, 0xED, 0xEF], true, 20) := by decide
/-- V46. -/
theorem test_resume_V46 : started (exec .resume boundIdle) =
    some (.send, [0x7E, 0xFF, 0x06, 0x0D, 0x00, 0x00, 0x00, 0xFE, 0xEE, 0xEF], true, 20) := by decide
/-- T1 at E10: the last byte completes the request. -/
theorem test_resume_last_byte :
    (after (exec .resume ((sending 0x7 resumeOperands 9).withPort ready))).map
      (fun t => (t.st, t.done, t.respErr, t.received)) = some (.idle, true, .ok, [0xEF]) := by decide
/-- V47. -/
theorem test_stop_V47 : started (exec .stop boundIdle) =
    some (.send, [0x7E, 0xFF, 0x06, 0x16, 0x00, 0x00, 0x00, 0xFE, 0xE5, 0xEF], true, 20) := by decide
/-- V48. -/
theorem test_stop_V48 : answered (exec .stop State.reset) = some (.idle, true, .notInit, false, 20) := by decide
/-- V50: the frame. -/
theorem test_sdready_V50 : started (exec .sdready boundIdle) =
    some (.send, [0x7E, 0xFF, 0x06, 0x3F, 0x00, 0x00, 0x00, 0xFE, 0xBC, 0xEF], true, 20) := by decide
/-- V51: the sample at the edge that ends the wait. -/
theorem test_sdready_V51 : answered (exec .sdready ((waiting 0x9 sdreadyOperands 1).withPort tickingAvail)) =
    some (.idle, true, .ok, true, 20) := by decide
/-- V64 (its words: line 1 high, line 0 low; by R7 the value 0b10, log 11), and V60 on the other line. -/
theorem test_isplaying_V64 :
    answered (exec (.isplaying 1) (boundIdle.withPort { Ports.quiet with lineIn := 0b10 })) =
      some (.idle, true, .ok, false, 20) ∧
    answered (exec (.isplaying 0) (boundIdle.withPort { Ports.quiet with lineIn := 0b10 })) =
      some (.idle, true, .ok, true, 20) := by decide
/-- V63: one line, index 1. -/
theorem test_isplaying_V63 : answered (exec (.isplaying 1) State.reset) = some (.idle, true, .badLine, false, 20) := by
  decide
/-- V70. -/
theorem test_reservedB_V70 : answered (exec .reservedB boundIdle) = some (.idle, true, .illegal, false, 20) := by
  decide
/-- V71: ILLEGAL wins over NOT_INIT. -/
theorem test_reservedHigh_V71 : answered (exec (.reservedHigh 0xF) State.reset) =
    some (.idle, true, .illegal, false, 20) := by decide

/-- T5: a reset edge in SEND clears everything and answers nothing. -/
theorem test_reset_T5 : (after (step ((sending 0x6 pauseOperands 3).withPort resetting))).map
    (fun t => (t.st, t.bound, t.done, t.respErr, t.received)) = some (.idle, false, false, .ok, []) := by decide

/-- The request presented by a table word is the one that runs, as the first after reset. -/
theorem test_fetch_word_runs : answered (step (State.reset.withFetchWord 28 0xA000001)) =
    some (.idle, true, .badLine, false, 20) := by decide

/-- The two stops, in states that no run reaches. -/
theorem test_stops :
    exec .pause ((waiting 0x6 pauseOperands 0).withPort ticking) = .fault .waitWithoutDelay ∧
    exec .init ((waiting 0x1 initOperands 2).withPort ticking) = .fault .waitPastEnd := ⟨rfl, rfl⟩

/-! ## Witnesses: states and operands that meet the hypotheses of the obligations -/

/-- A request presented to a block, the environment listed. -/
def offering (s : State) (w : RequestWord) (env : List Ports) : State := { presentRequest w s with env := env }

theorem witness_EmittedFramesPassTheReceiver : frameOf (.setvol 31) = some (buildFrame 0x06 0x00 30) := by decide

theorem witness_VolumeClampIsMinimumWithThirty :
    (30 : Word16).toNat ≤ 30 ∧ 31 ≤ (31 : Word16).toNat ∧ 31 ≤ (65535 : Word16).toNat := by decide

theorem witness_FramesMatchTheirTableRow :
    (Instr.setvol 65535).wellFormed = true ∧ frameOf (.setvol 65535) = some (buildFrame 0x06 0x00 30) ∧
    (⟨0x2, 0x7EFF06060000000000EF, 0xFFFFFFFFFFFF000000FF⟩ : FrameRow) ∈ frameRows ∧
    (0x2 : OpCode) = (Instr.setvol 65535).op := by decide

theorem witness_CommandByteNamesItsOperation :
    (Instr.stop.wellFormed = true ∧ operandsOf .stop = some stopOperands ∧ Instr.stop.op ≠ 0x0) ∧
    operationOfCommand 0x3F = some 0x9 := by decide

theorem witness_DecodeOfEncodeIsTheRequest :
    (Instr.playf 255 0).wellFormed = true ∧ (Instr.reservedHigh 0xC).wellFormed = true ∧
    (Instr.reservedHigh 0xF).wellFormed = true := by decide

theorem witness_EveryRequestWordDecodes : 0xFFFFFFF < 2 ^ 28 ∧ 2 ^ 28 ≤ 0x10000000 := by decide

theorem witness_OpCodeMapAndIgnoredFields : 0xC ≤ (0xC : OpCode).toNat ∧ 0xC ≤ (0xF : OpCode).toNat := by decide

theorem witness_AssemblerGivesTheWordOrRefuses :
    assemble (.frame 255 65535) = some 0x0FFFFFF ∧ assemble (.setvol 65535) = some 0x200FFFF ∧
    assemble (.play 65535) = some 0x300FFFF ∧ assemble (.playf 255 255) = some 0x400FFFF ∧
    assemble (.announce 0) = some 0x5000000 ∧ assemble (.isplaying 65535) = some 0xA00FFFF := by decide

theorem witness_PseudoInstructionsExpand : assemble (.frame2 255 255 255) = some 0x0FFFFFF ∧ 255 ≤ 255 := by decide

/-- InitAcceptanceBindsAndStartsFrame, ReservedOpsCompleteIllegal. -/
theorem witness_idle : State.reset.st = .idle ∧ State.reset.bound = false := by decide

/-- OperandRequestsStartTheirFrame, ParameterlessRequestsStartTheirFrame, SetvolCachesAndSendsClampedVolume. -/
theorem witness_idle_bound : boundIdle.st = .idle ∧ boundIdle.bound = true := by decide

/-- The last index that names a line and the first that does not. -/
theorem witness_IsplayingReadsTheNamedLine :
    boundIdle.st = .idle ∧ (1 : Word16).toNat < boundIdle.params.numLines ∧
    boundIdle.params.numLines ≤ (2 : Word16).toNat := by decide

theorem witness_UnboundRequestsCompleteNotInit :
    emitsFrame .sdready = true ∧ Instr.sdready ≠ .init ∧ State.reset.st = .idle ∧ State.reset.bound = false := by decide

theorem witness_SendEdge_fault :
    emitsFrame .pause = true ∧ ((sending 0x6 pauseOperands 0).withPort faulting).st = .send ∧
    ((sending 0x6 pauseOperands 0).withPort faulting).port.txFault = true := by decide

theorem witness_SendEdge_accepted :
    ((sending 0x6 pauseOperands 8).withPort ready).port.txFault = false ∧
    ((sending 0x6 pauseOperands 8).withPort ready).port.txReady = true ∧
    ((sending 0x6 pauseOperands 8).withPort ready).st = .send ∧
    ((sending 0x6 pauseOperands 8).withPort ready).idx.val < 9 := by decide

theorem witness_SendEdge_stall :
    (sending 0x6 pauseOperands 9).st = .send ∧ (sending 0x6 pauseOperands 9).port.txFault = false ∧
    (sending 0x6 pauseOperands 9).port.txReady = false := by decide

/-- No wait, a wait of 0, a wait of 1. -/
theorem witness_LastByteCompletesOrWaits :
    emitsFrame .pause = true ∧ ((sending 0x6 pauseOperands 9).withPort ready).st = .send ∧
    ((sending 0x6 pauseOperands 9).withPort ready).idx = 9 ∧
    ((sending 0x6 pauseOperands 9).withPort ready).port.txFault = false ∧
    ((sending 0x6 pauseOperands 9).withPort ready).port.txReady = true ∧
    delayOfOp boundIdle.params Instr.pause.op = none ∧
    delayOfOp { boundIdle.params with queryWaitUnits := 0 } Instr.sdready.op = some 0 ∧
    delayOfOp { boundIdle.params with initSettleUnits := 1 } Instr.init.op = some 1 ∧ (1 : Word16) ≠ 0 := by decide

theorem witness_WaitEdge_no_tick :
    (waiting 0x1 initOperands 0).st = .wait ∧ 2 = (waiting 0x1 initOperands 0).params.initSettleUnits ∧
    (waiting 0x1 initOperands 0).port.unitTick = false := by decide

theorem witness_WaitEdge_counted :
    ((waiting 0x1 initOperands 0).withPort ticking).st = .wait ∧
    ((waiting 0x1 initOperands 0).withPort ticking).port.unitTick = true ∧
    ((waiting 0x1 initOperands 0).withPort ticking).cnt.toNat + 1 < 2 := by decide

theorem witness_WaitEdge_last :
    ((waiting 0x9 sdreadyOperands 1).withPort tickingAvail).st = .wait ∧
    2 = ((waiting 0x9 sdreadyOperands 1).withPort tickingAvail).params.queryWaitUnits ∧
    ((waiting 0x9 sdreadyOperands 1).withPort tickingAvail).port.unitTick = true ∧
    ((waiting 0x9 sdreadyOperands 1).withPort tickingAvail).cnt.toNat + 1 = 2 := by decide

theorem witness_CompletionCodes_illegal :
    ∃ t, exec (.reservedHigh 0xC) boundIdle = .next t ∧ t.done = true ∧ t.respErr = .illegal := ⟨_, rfl, rfl, rfl⟩
theorem witness_CompletionCodes_notInit :
    ∃ t, exec .stop State.reset = .next t ∧ t.done = true ∧ t.respErr = .notInit := ⟨_, rfl, rfl, rfl⟩
theorem witness_CompletionCodes_badLine :
    ∃ t, exec (.isplaying 2) boundIdle = .next t ∧ t.done = true ∧ t.respErr = .badLine := ⟨_, rfl, rfl, rfl⟩
theorem witness_CompletionCodes_txFault :
    ∃ t, exec .stop ((sending 0x8 stopOperands 0).withPort faulting) = .next t ∧ t.done = true ∧
      t.respErr = .txFault := ⟨_, rfl, rfl, rfl⟩

theorem witness_PlaybackCommandsEqualTheirFrame :
    (Instr.playf 1 5).wellFormed = true ∧ operandsOf (.playf 1 5) = some (playfOperands 1 5) ∧
    (Instr.playf 1 5).op ∈ ([0x3, 0x4, 0x5, 0x6, 0x7, 0x8] : List OpCode) ∧ boundIdle.st ≠ .wait := by decide

/-- StepRunsThePresentedRequest. -/
theorem witness_presented :
    (offering boundIdle 0x3000001 []).port.rst = false ∧ (offering boundIdle 0x3000001 []).st = .idle ∧
    (offering boundIdle 0x3000001 []).port.reqValid = true ∧
    decode (requestWord (offering boundIdle 0x3000001 []).port.reqOp (offering boundIdle 0x3000001 []).port.reqCmd
      (offering boundIdle 0x3000001 []).port.reqP) = .play 1 := by decide

theorem witness_StepContinuesTheRequestInProgress :
    (sending 0x3 (playOperands 1) 4).port.rst = false ∧ (sending 0x3 (playOperands 1) 4).st ≠ .idle ∧
    (Instr.play 1).wellFormed = true ∧ (Instr.play 1).op = (sending 0x3 (playOperands 1) 4).opQ := by decide

theorem witness_ResetEdgeLoadsResetValues :
    ((sending 0x6 pauseOperands 3).withPort resetting).port.rst = true := by decide

theorem witness_IdleEdgeChangesOnlyDone :
    boundIdle.port.rst = false ∧ boundIdle.st = .idle ∧ boundIdle.port.reqValid = false ∧ ticking.rst = false ∧
    ticking.reqValid = false := by decide

theorem witness_OutputsAreFunctionsOfRegistersAndReset :
    txValid (sending 0x6 pauseOperands 9) = true ∧ ready.rst = (sending 0x6 pauseOperands 9).port.rst := by decide

/-- BytesMoveOnlyAtHandshakes: a step with a handshake. -/
theorem witness_step_handshake :
    ∃ t, step ((sending 0x6 pauseOperands 0).withPort ready) = .next t ∧ t.received = [0x7E] := ⟨_, rfl, rfl⟩

theorem witness_VolCache_reset :
    ∃ t, step ((sending 0x6 pauseOperands 3).withPort resetting) = .next t ∧ t.volCache = 20 := ⟨_, rfl, rfl⟩

theorem witness_VolCache_setvol :
    ∃ t, step (offering boundIdle 0x200001F []) = .next t ∧
      presented (offering boundIdle 0x200001F []) = .setvol 31 ∧ t.volCache ≠ boundIdle.volCache :=
  ⟨_, rfl, by decide, by decide⟩

/-- BoundSetByInitClearedByReset: set by INIT. -/
theorem witness_Bound_set :
    ∃ t, step (offering State.reset 0x1000000 []) = .next t ∧ (offering State.reset 0x1000000 []).bound = false ∧
      presented (offering State.reset 0x1000000 []) = .init ∧ t.bound = true := ⟨_, rfl, rfl, by decide, rfl⟩

/-- BoundSetByInitClearedByReset: cleared by reset. -/
theorem witness_Bound_cleared :
    ∃ t, step (boundIdle.withPort resetting) = .next t ∧ boundIdle.bound = true ∧ t.bound = false :=
  ⟨_, rfl, rfl, rfl⟩

/-- DoneMarksCompletionEdges, ResponseHeldUntilNextCompletion: a step that completes and one that does not. -/
theorem witness_step_done :
    (∃ t, step (offering boundIdle 0xB000000 []) = .next t ∧ t.done = true) ∧
    ∃ t, step boundIdle = .next t ∧ t.done = false := ⟨⟨_, rfl, rfl⟩, ⟨_, rfl, rfl⟩⟩

/-- IdleBlockReadsOnlyTheRequest: other levels of everything but the request and the named line. -/
theorem witness_IdleBlockReadsOnlyTheRequest :
    let s := offering { boundIdle with port := { Ports.quiet with lineIn := 0b10 } } 0xA000001 []
    let p := { s.port with txFault := true, unitTick := true, lineIn := 0b11 }
    s.st = .idle ∧ p.rst = s.port.rst ∧ p.reqValid = s.port.reqValid ∧ p.reqOp = s.port.reqOp ∧
    p.reqCmd = s.port.reqCmd ∧ p.reqP = s.port.reqP ∧ presented s = .isplaying 1 ∧
    p.lineIn.testBit 1 = s.port.lineIn.testBit 1 := by decide

theorem witness_SendingBlockReadsOnlyTheHandshake :
    let s := (sending 0x9 sdreadyOperands 9).withPort ready
    let p := { ready with rxAvail := true, reqValid := true, unitTick := true }
    s.st = .send ∧ p.rst = s.port.rst ∧ p.txFault = s.port.txFault ∧ p.txReady = s.port.txReady ∧
    s.params.queryWaitUnits ≠ 0 := by decide

/-- The one case in which `rx_avail` is read in SEND: SDREADY at byte 9 with a wait of 0. -/
theorem witness_SendingBlockReadsOnlyTheHandshake_zero_wait :
    let s := { (sending 0x9 sdreadyOperands 9).withPort { ready with rxAvail := true } with
      params := { boundIdle.params with queryWaitUnits := 0 } }
    let p := { ready with rxAvail := true, reqValid := true, unitTick := true }
    s.st = .send ∧ p.rst = s.port.rst ∧ p.txFault = s.port.txFault ∧ p.txReady = s.port.txReady ∧ s.opQ = 0x9 ∧
    s.params.queryWaitUnits = 0 ∧ s.idx = 9 ∧ p.rxAvail = s.port.rxAvail := by decide

theorem witness_WaitingBlockReadsOnlyTheTick :
    let s := (waiting 0x9 sdreadyOperands 1).withPort tickingAvail
    let p := { tickingAvail with txFault := true, reqValid := true }
    s.st = .wait ∧ p.rst = s.port.rst ∧ p.unitTick = s.port.unitTick ∧ p.rxAvail = s.port.rxAvail := by decide

theorem witness_StepKeepsParametersAndConsumesEnvironment :
    (∃ t, step { boundIdle with env := [ready, ticking] } = .next t) ∧
    ({ boundIdle with env := [ready, ticking] } : State).env = ready :: [ticking] ∧
    (∃ t, step boundIdle = .next t) ∧ boundIdle.env = [] := ⟨⟨_, rfl⟩, rfl, ⟨_, rfl⟩, rfl⟩

theorem witness_PresentedTableWordRuns : decodeTableWord 32 0xFFFFFFF = some (.reservedHigh 0xF) := by decide

/-- StepKeepsInvariants, BlockNeverHalts, FrameBytesArriveInOrder: SETVOL 12 at its last byte. -/
theorem witness_invariants :
    let s := { sending 0x2 (setvolOperands 12) 9 with
      volCache := 12, port := ready, received := (frameBytes (buildFrame 0x06 0x00 12)).take 9 }
    Inv s ∧ SentInOrder s ∧ ∃ t, step s = .next t := by
  refine ⟨⟨by decide, by decide, fun _ => rfl, fun _ => ⟨⟨.setvol 12, rfl, by decide⟩, fun _ => by decide⟩, ?_, ?_, ?_⟩,
    ⟨fun _ => List.suffix_refl _, ?_⟩, ⟨_, rfl⟩⟩ <;> intro h <;> cases h

/-- StepKeepsInvariants: SDREADY in its wait. -/
theorem witness_invariants_wait :
    Inv ((waiting 0x9 sdreadyOperands 1).withPort tickingAvail) ∧
    ∃ t, step ((waiting 0x9 sdreadyOperands 1).withPort tickingAvail) = .next t := by
  refine ⟨⟨by decide, by decide, fun _ => rfl, fun _ => ⟨⟨.sdready, rfl, by decide⟩, ?_⟩, fun _ => ⟨2, rfl, by decide⟩,
    ?_, ?_⟩, ⟨_, rfl⟩⟩ <;> intro h <;> exact absurd h (by decide)

/-- FrameRequestCompletesAtTenthHandshake: PLAY 1 with one stall. -/
theorem witness_FrameRequestCompletesAtTenthHandshake :
    let ps := Ports.quiet :: List.replicate 9 ready
    let s := offering boundIdle 0x3000001 (ps ++ ready :: [])
    s.st = .idle ∧ s.bound = true ∧ s.port.rst = false ∧ s.port.reqValid = true ∧ presented s = .play 1 ∧
    frameOf (.play 1) = some (buildFrame 0x03 0x00 0x01) ∧ delayOfOp s.params (Instr.play 1).op = none ∧
    s.env = ps ++ ready :: [] ∧ (∀ p ∈ ps, p.calm = true) ∧ readyCount ps = 9 ∧ ready.calm = true ∧
    ready.txReady = true := by decide

/-- WaitingRequestCompletesAtLastTick: INIT with a wait of 2, as in T2. -/
theorem witness_WaitingRequestCompletesAtLastTick :
    let ps := List.replicate 9 { ready with unitTick := true }
    let qs := [faulting, ticking, Ports.quiet]
    let s := offering { boundIdle with bound := false } 0x1000000 (ps ++ ready :: (qs ++ ticking :: []))
    s.st = .idle ∧ (Instr.init = .init ∨ s.bound = true) ∧ s.port.rst = false ∧ s.port.reqValid = true ∧
    presented s = .init ∧ frameOf .init = some (buildFrame 0x0C 0x00 0x00) ∧
    delayOfOp s.params Instr.init.op = some 2 ∧ (2 : Word16) ≠ 0 ∧ s.env = ps ++ ready :: (qs ++ ticking :: []) ∧
    (∀ p ∈ ps, p.calm = true) ∧ readyCount ps = 9 ∧ ready.calm = true ∧ ready.txReady = true ∧
    (∀ q ∈ qs, q.rst = false) ∧ tickCount qs + 1 = (2 : Word16).toNat ∧ ticking.rst = false ∧
    ticking.unitTick = true := by decide

/-- WaitingRequestCompletesAtLastTick: SDREADY with a wait of 1, as in T4. -/
theorem witness_WaitingRequestCompletesAtLastTick_sdready :
    let ps := List.replicate 9 ready
    let qs := [Ports.quiet, Ports.quiet]
    let b := { boundIdle with params := { boundIdle.params with queryWaitUnits := 1 } }
    let s := offering b 0x9000000 (ps ++ ready :: (qs ++ tickingAvail :: []))
    s.st = .idle ∧ (Instr.sdready = .init ∨ s.bound = true) ∧ s.port.rst = false ∧ s.port.reqValid = true ∧
    presented s = .sdready ∧ frameOf .sdready = some (buildFrame 0x3F 0x00 0x00) ∧
    delayOfOp s.params Instr.sdready.op = some 1 ∧ (1 : Word16) ≠ 0 ∧
    s.env = ps ++ ready :: (qs ++ tickingAvail :: []) ∧ (∀ p ∈ ps, p.calm = true) ∧ readyCount ps = 9 ∧
    ready.calm = true ∧ ready.txReady = true ∧ (∀ q ∈ qs, q.rst = false) ∧
    tickCount qs + 1 = (1 : Word16).toNat ∧ tickingAvail.rst = false ∧ tickingAvail.unitTick = true := by decide

/-- ZeroWaitRequestCompletesAtTenthHandshake: SDREADY with a wait of 0, as in V54. -/
theorem witness_ZeroWaitRequestCompletesAtTenthHandshake :
    let ps := List.replicate 9 ready
    let last := { ready with rxAvail := true }
    let b := { boundIdle with params := { boundIdle.params with queryWaitUnits := 0 } }
    let s := offering b 0x9000000 (ps ++ last :: [])
    s.st = .idle ∧ (Instr.sdready = .init ∨ s.bound = true) ∧ s.port.rst = false ∧ s.port.reqValid = true ∧
    presented s = .sdready ∧ frameOf .sdready = some (buildFrame 0x3F 0x00 0x00) ∧
    delayOfOp s.params Instr.sdready.op = some 0 ∧ s.env = ps ++ last :: [] ∧ (∀ p ∈ ps, p.calm = true) ∧
    readyCount ps = 9 ∧ last.calm = true ∧ last.txReady = true := by decide

/-- FaultLeavesPrefixAndAcceptanceEffects: SETVOL 12 faulted at byte 4, as in T3. -/
theorem witness_FaultLeavesPrefixAndAcceptanceEffects :
    let ps := [ready, Ports.quiet, ready, ready, ready]
    let s := offering boundIdle 0x200000C (ps ++ faulting :: [])
    s.st = .idle ∧ (Instr.setvol 12 = .init ∨ s.bound = true) ∧ s.port.rst = false ∧ s.port.reqValid = true ∧
    presented s = .setvol 12 ∧ frameOf (.setvol 12) = some (buildFrame 0x06 0x00 0x0C) ∧
    s.env = ps ++ faulting :: [] ∧ (∀ p ∈ ps, p.calm = true) ∧ readyCount ps ≤ 9 ∧ faulting.rst = false ∧
    faulting.txFault = true := by decide

/-- FaultLeavesPrefixAndAcceptanceEffects: INIT on an unbound block faulted at byte 0, as in V74. -/
theorem witness_FaultLeavesPrefixAndAcceptanceEffects_first :
    let s := offering State.reset 0x1000000 ([] ++ faulting :: [])
    s.st = .idle ∧ (Instr.init = .init ∨ s.bound = true) ∧ s.port.rst = false ∧ s.port.reqValid = true ∧
    presented s = .init ∧ frameOf .init = some (buildFrame 0x0C 0x00 0x00) ∧ s.env = [] ++ faulting :: [] ∧
    (∀ p ∈ ([] : List Ports), p.calm = true) ∧ readyCount [] ≤ 9 ∧ faulting.rst = false ∧
    faulting.txFault = true := by decide

/-- FaultLeavesPrefixAndAcceptanceEffects: PLAY 1 faulted at byte 9, as in V75. -/
theorem witness_FaultLeavesPrefixAndAcceptanceEffects_last :
    let ps := List.replicate 9 ready
    let s := offering boundIdle 0x3000001 (ps ++ faulting :: [])
    s.st = .idle ∧ (Instr.play 1 = .init ∨ s.bound = true) ∧ s.port.rst = false ∧ s.port.reqValid = true ∧
    presented s = .play 1 ∧ frameOf (.play 1) = some (buildFrame 0x03 0x00 0x01) ∧ s.env = ps ++ faulting :: [] ∧
    (∀ p ∈ ps, p.calm = true) ∧ readyCount ps = 9 ∧ faulting.rst = false ∧ faulting.txFault = true := by decide

theorem witness_HangsAreKept :
    ((sending 0x6 pauseOperands 0).st = .send ∧
      ∀ p ∈ (sending 0x6 pauseOperands 0).port :: [Ports.quiet], p.calm = true ∧ p.txReady = false) ∧
    (waiting 0x1 initOperands 0).st = .wait ∧
      ∀ p ∈ (waiting 0x1 initOperands 0).port :: [ready], p.rst = false ∧ p.unitTick = false := by decide

/-- CycleLevelRefinesTransactionLevel: INIT from reset, faulted at its first byte (V74), two edges. -/
theorem witness_CycleLevelRefinesTransactionLevel :
    let s := offering State.reset 0x1000000 [faulting]
    s.st = .idle ∧ s.port.rst = false ∧ s.port.reqValid = true ∧
    (∃ t, steps (1 + 1) s = .next t ∧ t.done = true) ∧
    ∀ k : Nat, k < 1 → ∃ u : State, steps (k + 1) s = .next u ∧ u.done = false ∧ u.port.rst = false := by
  refine ⟨rfl, rfl, rfl, ⟨_, rfl, rfl⟩, fun k hk => ?_⟩
  obtain rfl : k = 0 := by omega
  exact ⟨_, rfl, rfl, rfl⟩

end Sys2Proof.Tests
end

section
/-! PROOFS. The scope of the block (00_scope.md): what it reads while idle, what an edge leaves to the environment, and
that the cycle level realises the transaction level (R9). -/

namespace Sys2Proof.Machine

/-! ## What no edge writes -/

/-- No edge writes the parameters, the listed input levels or the edge counter: only the advance after it does. -/
theorem EdgeStep.keeps_environment {s u : State} (h : EdgeStep s u) :
    u.params = s.params ∧ u.env = s.env ∧ u.edgeCount = s.edgeCount := by
  cases h <;> simp

/-- Settles O44: no edge writes these fields, so the advance alone decides them. -/
theorem stepKeepsParametersAndConsumesEnvironment : Obligations.StepKeepsParametersAndConsumesEnvironment := by
  unfold Obligations.StepKeepsParametersAndConsumesEnvironment
  intro s t h
  obtain ⟨u, hu, rfl⟩ := step_cases h
  obtain ⟨hprm, henv, hcount⟩ := hu.keeps_environment
  refine ⟨by simp [hprm], by simp [hcount], fun p ps hps => ?_, fun hnil => ?_⟩
  · simp [advance_of_env_cons (henv.trans hps)]
  · simp [advance_of_env_nil (henv.trans hnil), henv.trans hnil]

/-- Settles O32. -/
theorem resetStateHasResetColumn : Obligations.ResetStateHasResetColumn := by
  unfold Obligations.ResetStateHasResetColumn
  exact ⟨rfl, rfl, rfl, rfl, rfl, rfl, rfl, rfl, Nat.le_refl 1⟩

/-! ## Requests that complete at their acceptance edge (R40 steps 1 to 3) -/

/-- In an idle state a completion writes the response registers and `done` alone. -/
theorem complete_clearDone_of_idle {s : State} (h : s.st = .idle) (e : RespErr) (b : Bool) :
    complete e b s.clearDone = { s with respErr := e, respBool := b, done := true } := by
  rw [complete, State.clearDone, ← h]

theorem exec_idle_isplaying (n : Word16) {s : State} (h : s.st = .idle) :
    exec (.isplaying n) s = .next (acceptIsplaying n s.clearDone) :=
  performRequest_idle h

/-- Settles O21: the two sides of the index test, each a completion in an idle state. -/
theorem isplayingReadsTheNamedLine : Obligations.IsplayingReadsTheNamedLine := by
  unfold Obligations.IsplayingReadsTheNamedLine
  intro n s h
  rw [exec_idle_isplaying n h]
  refine ⟨fun hn => ?_, fun hn => ?_⟩
  · rw [acceptIsplaying_of_named (s := s.clearDone) hn, complete_clearDone_of_idle h]
    rfl
  · rw [acceptIsplaying_of_unnamed (s := s.clearDone) hn, raise, complete_clearDone_of_idle h]

/-- Acceptance of `i` starts no frame: it has none, or it needs an INIT first (R40 steps 1 to 3). -/
def RespondsAtOnce (bound : Bool) (i : Instr) : Prop := operandsOf i = none ∨ (i ≠ .init ∧ bound = false)

/-- The response of a request that completes at its acceptance edge (R155 to R157, R174, R175). -/
def responseAtOnce (prm : Config.Params) (lines : Nat) : Instr → RespErr × Bool
  | .isplaying n => if namesLine prm n then (.ok, !lineLevel lines n) else (.badLine, false)
  | .reservedB | .reservedHigh _ => (.illegal, false)
  | .frame _ _ | .init | .setvol _ | .play _ | .playf _ _ | .announce _ | .pause | .resume | .stop | .sdready =>
    (.notInit, false)

theorem responseAtOnce_of_operands {i : Instr} {o : FrameOperands} (ho : operandsOf i = some o)
    (prm : Config.Params) (lines : Nat) : responseAtOnce prm lines i = (.notInit, false) := by
  cases i <;> simp [operandsOf] at ho <;> rfl

/-- Every request starts its frame at acceptance or responds there. -/
theorem starts_or_respondsAtOnce (bound : Bool) (i : Instr) :
    (∃ o, operandsOf i = some o ∧ (i = .init ∨ bound = true)) ∨ RespondsAtOnce bound i := by
  rcases ho : operandsOf i with _ | o
  · exact .inr (.inl ho)
  · by_cases hb : i = .init ∨ bound = true
    · exact .inl ⟨o, rfl, hb⟩
    · exact .inr (.inr (by simpa using hb))

theorem acceptIsplaying_eq (n : Word16) (s : State) :
    acceptIsplaying n s = complete (responseAtOnce s.params s.port.lineIn (.isplaying n)).1
      (responseAtOnce s.params s.port.lineIn (.isplaying n)).2 s := by
  rcases hn : namesLine s.params n with _ | _ <;> simp [acceptIsplaying, responseAtOnce, hn, raise]

theorem exec_idle_responds {i : Instr} {s : State} (h : s.st = .idle) (hi : RespondsAtOnce s.bound i) :
    exec i s = .next (complete (responseAtOnce s.params s.port.lineIn i).1
      (responseAtOnce s.params s.port.lineIn i).2 s.clearDone) := by
  rcases ho : operandsOf i with _ | o
  · cases i with
    | isplaying n => rw [exec_idle_isplaying n h, acceptIsplaying_eq]; rfl
    | reservedB => exact performRequest_idle h
    | reservedHigh => exact performRequest_idle h
    | _ => cases ho
  · rcases hi with hnone | ⟨hne, hb⟩
    · rw [ho] at hnone; cases hnone
    · rw [responseAtOnce_of_operands ho]
      exact exec_idle_not_init ho h hne hb

/-! ## What an idle block reads -/

/-- An edge that does the same under other input levels makes the same step: the advance replaces the levels. -/
theorem step_withPort_of_edge {p : Ports} {s u : State} (h : edge s = .next u)
    (hp : edge (s.withPort p) = .next (u.withPort p)) : step (s.withPort p) = step s := by
  rw [step_of_edge_next h, step_of_edge_next hp, advance_withPort]

theorem acceptanceWrites_withPort (i : Instr) (p : Ports) (s : State) :
    acceptanceWrites i (s.withPort p) = (acceptanceWrites i s).withPort p := by
  cases i <;> rfl

/-- Of the line levels a response at acceptance depends on ISPLAYING's named line alone (R156, R157). -/
theorem responseAtOnce_congr {prm : Config.Params} {lines lines' : Nat} {i : Instr}
    (h : ∀ n : Word16, i = .isplaying n → n.toNat < prm.numLines → lines'.testBit n.toNat = lines.testBit n.toNat) :
    responseAtOnce prm lines' i = responseAtOnce prm lines i := by
  cases i with
  | isplaying n =>
    by_cases hn : n.toNat < prm.numLines
    · simp [responseAtOnce, lineLevel, h n rfl hn]
    · simp [responseAtOnce, namesLine, hn]
  | _ => rfl

/-- An acceptance reads no input but the request it is given and, for ISPLAYING, the named line. -/
theorem exec_idle_withPort {i : Instr} {p : Ports} {s : State} (h : s.st = .idle)
    (hline : ∀ n : Word16, i = .isplaying n → n.toNat < s.params.numLines →
      p.lineIn.testBit n.toNat = s.port.lineIn.testBit n.toNat) :
    ∃ u, exec i s = .next u ∧ exec i (s.withPort p) = .next (u.withPort p) := by
  rcases starts_or_respondsAtOnce s.bound i with ⟨o, ho, hb⟩ | hi
  · refine ⟨_, exec_idle_starts ho h hb, (exec_idle_starts (s := s.withPort p) ho h hb).trans ?_⟩
    rw [show (s.withPort p).clearDone = s.clearDone.withPort p from rfl, acceptanceWrites_withPort]
    rfl
  · refine ⟨_, exec_idle_responds h hi, (exec_idle_responds (s := s.withPort p) h hi).trans ?_⟩
    rw [withPort_params, withPort_port, responseAtOnce_congr hline]
    rfl

/-- Settles O41: a reset edge and an idle edge read no other input, and an acceptance only its request and line. -/
theorem idleBlockReadsOnlyTheRequest : Obligations.IdleBlockReadsOnlyTheRequest := by
  unfold Obligations.IdleBlockReadsOnlyTheRequest
  intro s p h hrst hvalid hreq hline
  rcases hr : s.port.rst with _ | _
  · rcases hv : s.port.reqValid with _ | _
    · exact step_withPort_of_edge (edge_idle hr h hv) (edge_idle (s := s.withPort p) (hrst.trans hr) h (hvalid.trans hv))
    · obtain ⟨hop, hcmd, hp⟩ := hreq hv
      have hpres : presented (s.withPort p) = presented s := by
        simp [presented, Ports.word, hop, hcmd, hp]
      obtain ⟨u, hu, hu'⟩ := exec_idle_withPort (p := p) h (fun n => hline n hv)
      refine step_withPort_of_edge ((edge_accept hr h hv).trans hu) ?_
      rw [edge_accept (s := s.withPort p) (hrst.trans hr) h (hvalid.trans hv), hpres, hu']
  · exact step_withPort_of_edge (edge_reset hr) (edge_reset (s := s.withPort p) (hrst.trans hr))

/-! ## The transaction level by cases -/

/-- What the two levels compare of a completed request (R9): the effects `e` of the transaction are those of the state
`t`, for a transport that had the bytes `before` at acceptance. -/
def Effects.RealisedBy (e : Effects) (before : List Byte) (t : State) : Prop :=
  e.bound = t.bound ∧ e.volCache = t.volCache ∧ before ++ e.emitted = t.received ∧ e.respErr = t.respErr ∧
    e.respBool = t.respBool

theorem transact_responds {i : Instr} {bound : Bool} (hi : RespondsAtOnce bound i) (prm : Config.Params) (vol : Byte)
    (d : Draw) : transact prm i bound vol d =
      respondAtOnce bound vol (responseAtOnce prm d.lineIn i).1 (responseAtOnce prm d.lineIn i).2 := by
  rcases ho : operandsOf i with _ | o
  · cases i with
    | isplaying n => rw [transact, responseAtOnce]; split <;> rfl
    | reservedB => rfl
    | reservedHigh => rfl
    | _ => cases ho
  · rcases hi with hnone | ⟨hne, rfl⟩
    · rw [ho] at hnone; cases hnone
    · rw [responseAtOnce_of_operands ho]
      cases i with
      | init => exact absurd rfl hne
      | isplaying => cases ho
      | reservedB => cases ho
      | reservedHigh => cases ho
      | _ => rfl

/-- A request that starts its frame emits it and waits; acceptance has bound the transport, or found it bound, and
written `vol_cache` (R95, R110 to R118, R150). -/
theorem transact_starts {i : Instr} {o : FrameOperands} {s : State} (ho : operandsOf i = some o)
    (hb : i = .init ∨ s.bound = true) (d : Draw) :
    transact s.params i s.bound s.volCache d =
      emitThenWait true (acceptanceWrites i s).volCache o.frame ((delayOfOp s.params i.op).elim 0 BitVec.toNat)
        (decide (i.op = 0x9) && d.rxAvail) d := by
  cases i <;> simp only [operandsOf, Option.some.injEq, reduceCtorEq] at ho <;> subst ho
  case init => rfl
  all_goals
    obtain hb : s.bound = true := by simpa using hb
    rw [hb]
    rfl

/-! ## The request in progress -/

/-- A request with op code `op` and frame `f` is in progress: acceptance left `vol` in `vol_cache`, and the transport
has `before` and then the bytes of `f` that were offered and accepted (R23, R25, R54). -/
structure Underway (op : OpCode) (f : Frame) (vol : Byte) (before : List Byte) (u : State) : Prop where
  opQ      : u.opQ = op
  buf      : u.buf = f
  bound    : u.bound = true
  volCache : u.volCache = vol
  sent     : (u.st = .send ∧ u.received = before ++ (frameBytes f).take u.idx.val) ∨
    (u.st = .wait ∧ u.received = before ++ frameBytes f)

section
variable {op : OpCode} {f : Frame} {vol : Byte} {before : List Byte} {u v t : State}

theorem Underway.not_idle (h : Underway op f vol before u) : u.st ≠ .idle := by
  rcases h.sent with ⟨hs, -⟩ | ⟨hs, -⟩ <;> simp [hs]

/-- In SEND the transport has the bytes before `idx`. -/
theorem Underway.received_of_send (h : Underway op f vol before u) (hs : u.st = .send) :
    u.received = before ++ (frameBytes f).take u.idx.val := by
  rcases h.sent with ⟨-, hrec⟩ | ⟨hw, -⟩
  · exact hrec
  · rw [hs] at hw; cases hw

/-- In WAIT the transport has the whole frame. -/
theorem Underway.received_of_wait (h : Underway op f vol before u) (hs : u.st = .wait) :
    u.received = before ++ frameBytes f := by
  rcases h.sent with ⟨hw, -⟩ | ⟨-, hrec⟩
  · rw [hs] at hw; cases hw
  · exact hrec

/-- The byte offered in SEND follows those the transport has. -/
theorem Underway.received_transferByte (h : Underway op f vol before u) (hs : u.st = .send) :
    u.transferByte.received = before ++ (frameBytes f).take (u.idx.val + 1) := by
  rw [transferByte_received, h.received_of_send hs, h.buf, frameBytes_take_succ, List.append_assoc]

/-- Byte 9 completes the frame. -/
theorem Underway.received_lastByte (h : Underway op f vol before u) (hs : u.st = .send) (hi : u.idx = 9) :
    u.transferByte.received = before ++ frameBytes f := by
  rw [h.received_transferByte hs, hi]
  rfl

/-- One edge of a request in progress: it stays in progress, or it ends as its frame's transaction does for the fault
this edge reports, if it reports one, and the level of `rx_avail` at this edge (R41 to R43, R173). -/
theorem Underway.edge_cases (h : Underway op f vol before u) (hr : u.port.rst = false) (hv : EdgeStep u v) :
    (v.done = false ∧ Underway op f vol before v) ∨
    v.done = true ∧ ∃ j : Option (Fin 10), ∀ n lines : Nat,
      (emitThenWait true vol f n (resultOfOp op u) ⟨j, u.port.rxAvail, lines⟩).RealisedBy before v := by
  cases hv with
  | reset hr' => rw [hr] at hr'; cases hr'
  | idle _ hs => exact absurd hs h.not_idle
  | start _ hs => exact absurd hs h.not_idle
  | respond _ hs => exact absurd hs h.not_idle
  | fault _ hs =>
    exact .inr ⟨rfl, some u.idx, fun _ _ => ⟨h.bound.symm, h.volCache.symm, (h.received_of_send hs).symm, rfl, rfl⟩⟩
  | byte _ hs _ _ hi =>
    refine .inl ⟨rfl, h.opQ, h.buf, h.bound, h.volCache, .inl ⟨hs, ?_⟩⟩
    rw [nextByte_idx, transferByte_idx, clearDone_idx, succ_val_of_lt hi]
    exact h.received_transferByte hs
  | lastByte _ hs _ _ hi =>
    refine .inr ⟨rfl, none, fun _ _ => ⟨h.bound.symm, h.volCache.symm, ?_, rfl, by rw [← h.opQ]; rfl⟩⟩
    exact (h.received_lastByte hs hi).symm
  | enterWait _ hs _ _ hi =>
    exact .inl ⟨rfl, h.opQ, h.buf, h.bound, h.volCache, .inr ⟨rfl, h.received_lastByte hs hi⟩⟩
  | stall => exact .inl ⟨rfl, h.opQ, h.buf, h.bound, h.volCache, h.sent⟩
  | noTick => exact .inl ⟨rfl, h.opQ, h.buf, h.bound, h.volCache, h.sent⟩
  | tick => exact .inl ⟨rfl, h.opQ, h.buf, h.bound, h.volCache, h.sent⟩
  | lastTick _ hs =>
    refine .inr ⟨rfl, none, fun _ _ => ⟨h.bound.symm, h.volCache.symm, ?_, rfl, by rw [← h.opQ]; rfl⟩⟩
    exact (h.received_of_wait hs).symm

theorem Underway.after_advance (h : Underway op f vol before u) : Underway op f vol before (advance u) := by
  obtain ⟨hop, hbuf, hbound, hvol, hsent⟩ := h
  constructor <;> simpa

theorem Effects.RealisedBy.after_advance {e : Effects} {before : List Byte} {t : State} (h : e.RealisedBy before t) :
    e.RealisedBy before (advance t) := by
  simpa [Effects.RealisedBy] using h

/-- One step of a request in progress, as `Underway.edge_cases`. -/
theorem Underway.next_cases (h : Underway op f vol before u) (hr : u.port.rst = false) (ht : step u = .next t) :
    (t.done = false ∧ Underway op f vol before t) ∨
    t.done = true ∧ ∃ j : Option (Fin 10), ∀ n lines : Nat,
      (emitThenWait true vol f n (resultOfOp op u) ⟨j, u.port.rxAvail, lines⟩).RealisedBy before t := by
  obtain ⟨v, hv, rfl⟩ := step_cases ht
  rcases h.edge_cases hr hv with ⟨hd, hu⟩ | ⟨hd, j, hj⟩
  · exact .inl ⟨by simpa using hd, hu.after_advance⟩
  · exact .inr ⟨by simpa using hd, j, fun n lines => (hj n lines).after_advance⟩

end

/-- Acceptance puts a request that starts its frame in progress. -/
theorem underway_startFrame {i : Instr} {o : FrameOperands} {s : State} (hb : i = .init ∨ s.bound = true) :
    Underway i.op o.frame (acceptanceWrites i s).volCache s.received
      (startFrame i.op o (acceptanceWrites i s)) where
  opQ := rfl
  buf := rfl
  bound := by
    rw [startFrame_bound, acceptanceWrites_bound]
    split
    next => rfl
    next hne => exact hb.resolve_left hne
  volCache := rfl
  sent := .inl ⟨rfl, by simp⟩

/-! ## A request from its acceptance to its completion -/

/-- The last of several steps. -/
theorem steps_succ_of_steps {n : Nat} {s u : State} (h : steps n s = .next u) : steps (n + 1) s = step u := by
  induction n generalizing s with
  | zero =>
    obtain rfl := Host.Outcome.next.inj h
    rw [steps]
    rcases step s with _ | _ | _ <;> rfl
  | succ n ih =>
    rw [steps] at h ⊢
    rcases hs : step s with v | _ | _
    · rw [hs] at h
      exact ih h
    · rw [hs] at h; cases h
    · rw [hs] at h; cases h

theorem steps_one (s : State) : steps 1 s = step s := steps_succ_of_steps rfl

/-- The first `n` steps from `s` complete no request, and no reset is sampled at the edge after any of them. -/
def Uninterrupted (n : Nat) (s : State) : Prop :=
  ∀ k : Nat, k < n → ∃ u : State, steps (k + 1) s = .next u ∧ u.done = false ∧ u.port.rst = false

/-- The completion at step `n + 1` realises the transaction of the request presented in `s`, with the lines as sampled
at acceptance and `rx_avail` as sampled at the last edge. -/
def RealisesTransaction (n : Nat) (s t : State) : Prop :=
  ∃ d : Draw, d.lineIn = s.port.lineIn ∧ (∀ u : State, steps n s = .next u → d.rxAvail = u.port.rxAvail) ∧
    (transact s.params (presented s) s.bound s.volCache d).RealisedBy s.received t

/-- A request put in progress by the first step stays so while nothing ends it. -/
theorem Underway.of_uninterrupted {op : OpCode} {f : Frame} {vol : Byte} {before : List Byte} {n : Nat} {s a : State}
    (ha : step s = .next a) (hund : Underway op f vol before a) (hrun : Uninterrupted n s) {k : Nat} (hk : k < n) :
    ∃ u : State, steps (k + 1) s = .next u ∧ u.port.rst = false ∧ Underway op f vol before u := by
  induction k with
  | zero =>
    obtain ⟨u, hu, -, hr⟩ := hrun 0 hk
    obtain rfl := Host.Outcome.next.inj (ha.symm.trans ((steps_one s).symm.trans hu))
    exact ⟨a, hu, hr, hund⟩
  | succ k ih =>
    obtain ⟨u, hu, hr, hundu⟩ := ih (Nat.lt_of_succ_lt hk)
    obtain ⟨v, hv, hd, hrv⟩ := hrun (k + 1) hk
    rcases hundu.next_cases hr ((steps_succ_of_steps hu).symm.trans hv) with ⟨-, hundv⟩ | ⟨hd', -⟩
    · exact ⟨v, hv, hrv, hundv⟩
    · rw [hd] at hd'; cases hd'

/-- A request that starts its frame: the first step accepts it and the last completes it. -/
theorem realisesTransaction_of_starts {o : FrameOperands} {n : Nat} {s t : State} (hs : s.st = .idle)
    (hr : s.port.rst = false) (hv : s.port.reqValid = true) (ho : operandsOf (presented s) = some o)
    (hb : presented s = .init ∨ s.bound = true) (ht : steps (n + 1) s = .next t) (hd : t.done = true)
    (hrun : Uninterrupted n s) : RealisesTransaction n s t := by
  have hstep := step_of_edge_next ((edge_accept hr hs hv).trans (exec_idle_starts ho hs hb))
  cases n with
  | zero =>
    obtain rfl := Host.Outcome.next.inj (hstep.symm.trans ((steps_one s).symm.trans ht))
    simp at hd
  | succ m =>
    have hund := (underway_startFrame (o := o) (s := s.clearDone) hb).after_advance
    obtain ⟨u, hu, hru, hundu⟩ := hund.of_uninterrupted hstep hrun (Nat.lt_succ_self m)
    rcases hundu.next_cases hru ((steps_succ_of_steps hu).symm.trans ht) with ⟨hd', -⟩ | ⟨-, j, hj⟩
    · rw [hd] at hd'; cases hd'
    · refine ⟨⟨j, u.port.rxAvail, s.port.lineIn⟩, rfl, fun u' hu' => ?_, ?_⟩
      · obtain rfl := Host.Outcome.next.inj (hu.symm.trans hu')
        rfl
      · exact transact_starts (s := s.clearDone) ho hb _ ▸ hj _ s.port.lineIn

/-- A request that responds at acceptance completes at the first step. -/
theorem realisesTransaction_of_responds {n : Nat} {s t : State} (hs : s.st = .idle) (hr : s.port.rst = false)
    (hv : s.port.reqValid = true) (hi : RespondsAtOnce s.bound (presented s)) (ht : steps (n + 1) s = .next t)
    (hrun : Uninterrupted n s) : RealisesTransaction n s t := by
  have hstep := step_of_edge_next ((edge_accept hr hs hv).trans (exec_idle_responds hs hi))
  cases n with
  | zero =>
    obtain rfl := Host.Outcome.next.inj (hstep.symm.trans ((steps_one s).symm.trans ht))
    refine ⟨⟨none, s.port.rxAvail, s.port.lineIn⟩, rfl, fun u hu => ?_, ?_⟩
    · obtain rfl := Host.Outcome.next.inj hu
      rfl
    · rw [transact_responds hi]
      exact Effects.RealisedBy.after_advance ⟨rfl, rfl, List.append_nil _, rfl, rfl⟩
  | succ m =>
    obtain ⟨u, hu, hdu, -⟩ := hrun 0 m.succ_pos
    obtain rfl := Host.Outcome.next.inj (hstep.symm.trans ((steps_one s).symm.trans hu))
    simp at hdu

/-- Settles O54: by what acceptance does, a request starts its frame and is in progress until its last edge, or it
responds at the first. -/
theorem cycleLevelRefinesTransactionLevel : Obligations.CycleLevelRefinesTransactionLevel := by
  unfold Obligations.CycleLevelRefinesTransactionLevel
  intro s t n hs hr hv ht hd hrun
  rcases starts_or_respondsAtOnce s.bound (presented s) with ⟨o, ho, hb⟩ | hi
  · exact realisesTransaction_of_starts hs hr hv ho hb ht hd hrun
  · exact realisesTransaction_of_responds hs hr hv hi ht hrun

end Sys2Proof.Machine
end

section
/-! PROOFS. The sequencing state (10_state.md): the acceptance edge, the edges in SEND and WAIT, what a step writes and
what it reads, the invariants of R45, and whole requests from their acceptance to their completion. -/

namespace Sys2Proof.Machine

/-! ## The invariants of R45 -/

/-- A completion leaves nothing in progress, so only the bounds and the response are left to check. -/
theorem Inv.of_completion {s u : State} (h : Inv s) (hst : u.st = .idle) (hvol : u.volCache = s.volCache)
    (hprm : u.params = s.params) (hresp : u.respBool = true → u.respErr = .ok) : Inv u where
  vol := hvol ▸ h.vol
  lines := hprm ▸ h.lines
  bound := fun hne => absurd hst hne
  buf := fun hne => absurd hst hne
  waiting := fun hw => by rw [hst] at hw; cases hw
  done := fun _ => hst
  resp := hresp

theorem Inv.clearDone {s : State} (h : Inv s) : Inv s.clearDone :=
  ⟨h.vol, h.lines, h.bound, h.buf, h.waiting, fun hd => (by cases hd), h.resp⟩

/-- The byte transfer moves `idx` and the record of the transport, of which no invariant speaks. -/
theorem Inv.transferByte {s : State} (h : Inv s) : Inv s.transferByte :=
  ⟨h.vol, h.lines, h.bound, h.buf, h.waiting, h.done, h.resp⟩

theorem Inv.nextByte {s : State} (h : Inv s) : Inv s.nextByte :=
  ⟨h.vol, h.lines, h.bound, h.buf, h.waiting, h.done, h.resp⟩

/-- The wait begins with `cnt` = 0 below its length. -/
theorem Inv.enterWait {s : State} {n : Word16} (h : Inv s) (hs : s.st = .send) (hdone : s.done = false)
    (hd : delayOfOp s.params s.opQ = some n) (hn : n.toNat ≠ 0) : Inv s.enterWait where
  vol := h.vol
  lines := h.lines
  bound := fun _ => h.bound (by simp [hs])
  buf := fun _ => h.buf (by simp [hs])
  waiting := fun _ => ⟨n, hd, Nat.pos_of_ne_zero hn⟩
  done := fun ht => by rw [enterWait_done, hdone] at ht; cases ht
  resp := h.resp

/-- A tick before the last leaves `cnt` below the length of the wait. -/
theorem Inv.countTick {s : State} {n : Word16} (h : Inv s) (hd : delayOfOp s.params s.opQ = some n)
    (hc : s.cnt.toNat + 1 < n.toNat) : Inv s.countTick :=
  ⟨h.vol, h.lines, h.bound, h.buf, fun _ => ⟨n, hd, by rw [countTick_cnt_toNat hc]; exact hc⟩, h.done, h.resp⟩

/-- Of the requests with a frame SETVOL alone has op code 0x2, and its frame sends the volume it caches (R28, R112). -/
theorem paramLow_of_op_setvol {i : Instr} {o : FrameOperands} (ho : operandsOf i = some o) (hop : i.op = 0x2)
    (s : State) : o.frame.paramLow = (acceptanceWrites i s).volCache := by
  cases i with
  | setvol v => obtain rfl := Option.some.inj ho; rfl
  | isplaying => cases ho
  | reservedB => cases ho
  | reservedHigh => cases ho
  | _ => cases hop

theorem acceptanceWrites_volCache_le {s : State} (h : s.volCache.toNat ≤ 30) (i : Instr) :
    (acceptanceWrites i s).volCache.toNat ≤ 30 := by
  cases i with
  | setvol v => rw [acceptanceWrites_setvol_volCache, clampVol_toNat]; exact Nat.min_le_right _ _
  | _ => exact h

/-- An acceptance that starts a frame latches the frame of the request it names (R25, R40). -/
theorem Inv.startFrame {s : State} {i : Instr} {o : FrameOperands} (h : Inv s) (hdone : s.done = false)
    (ho : operandsOf i = some o) (hb : i = .init ∨ s.bound = true) :
    Inv (startFrame i.op o (acceptanceWrites i s)) where
  vol := acceptanceWrites_volCache_le h.vol i
  lines := by simpa using h.lines
  bound := fun _ => by
    rw [startFrame_bound, acceptanceWrites_bound]
    split
    next => rfl
    next hne => exact hb.resolve_left hne
  buf := fun _ => ⟨⟨i, rfl, by simp [frameOf, ho]⟩, fun hop => paramLow_of_op_setvol ho hop s⟩
  waiting := fun hw => by cases hw
  done := fun ht => by rw [startFrame_done, acceptanceWrites_done, hdone] at ht; cases ht
  resp := by simpa using h.resp

theorem Inv.resetEdge {s : State} (h : Inv s) : Inv (resetEdge s) where
  vol := by simp [Config.volDefault]
  lines := h.lines
  bound := fun hne => absurd rfl hne
  buf := fun hne => absurd rfl hne
  waiting := fun hw => by cases hw
  done := fun hd => by cases hd
  resp := fun hb => by cases hb

theorem Inv.edgeStep {s u : State} (h : Inv s) (hu : EdgeStep s u) : Inv u := by
  have hc := h.clearDone
  cases hu with
  | reset => exact h.resetEdge
  | idle => exact hc
  | start _ _ _ o ho hb => exact hc.startFrame rfl ho hb
  | respond _ _ _ e b hb => exact hc.of_completion rfl rfl rfl fun ht => hb.resolve_right (by simpa using ht)
  | fault => exact hc.of_completion rfl rfl rfl fun ht => by cases ht
  | byte => exact hc.transferByte.nextByte
  | lastByte => exact hc.of_completion rfl rfl rfl fun _ => rfl
  | enterWait _ hs _ _ _ n hd hn => exact hc.transferByte.enterWait hs rfl hd hn
  | stall => exact hc
  | noTick => exact hc
  | tick _ _ _ n hd hlt => exact hc.countTick hd hlt
  | lastTick => exact hc.of_completion rfl rfl rfl fun _ => rfl

/-- The environment's drive changes no field of which an invariant speaks. -/
theorem Inv.advance {s : State} (h : Inv s) : Inv (advance s) := by
  obtain ⟨hvol, hlines, hbound, hbuf, hwait, hdone, hresp⟩ := h
  constructor <;> simpa [bufHoldsRequest]

/-- Settles O46: each clause of R40 to R44 and R200 keeps the invariants, and the drive of the ports does. -/
theorem stepKeepsInvariants : Obligations.StepKeepsInvariants := by
  unfold Obligations.StepKeepsInvariants
  intro s t h ht
  obtain ⟨u, hu, rfl⟩ := step_cases ht
  exact (h.edgeStep hu).advance

/-- Settles O47: nothing is in progress after reset, and the registers and parameters are within their bounds. -/
theorem resetSatisfiesInvariants : Obligations.ResetSatisfiesInvariants := by
  unfold Obligations.ResetSatisfiesInvariants
  exact
    { vol := by decide
      lines := Nat.le_refl 1
      bound := fun hne => absurd rfl hne
      buf := fun hne => absurd rfl hne
      waiting := fun hw => by cases hw
      done := fun _ => rfl
      resp := fun _ => rfl }

theorem exec_idle_next (i : Instr) {s : State} (h : s.st = .idle) : ∃ u, exec i s = .next u := by
  rcases exec_idle_cases i h with ⟨o, -, -, hu⟩ | ⟨e, b, hu, -⟩
  · exact ⟨_, hu⟩
  · exact ⟨_, hu⟩

/-- R45 keeps the two stops of WAIT away: the request has a wait, and `cnt` is below its length. -/
theorem Inv.edge_next {s : State} (h : Inv s) : ∃ u, edge s = .next u := by
  rcases hr : s.port.rst with _ | _
  · rcases hs : s.st with _ | _ | _
    · rcases hv : s.port.reqValid with _ | _
      · exact ⟨_, edge_idle hr hs hv⟩
      · rw [edge_accept hr hs hv]
        exact exec_idle_next _ hs
    · exact ⟨_, edge_send hr hs⟩
    · rw [edge_wait hr hs]
      rcases ht : s.port.unitTick with _ | _
      · exact ⟨_, waitEdgeOfOp_of_no_tick ht⟩
      · obtain ⟨n, hd, hc⟩ := h.waiting hs
        rcases Nat.lt_or_eq_of_le (Nat.succ_le_of_lt hc) with hlt | heq
        · exact ⟨_, waitEdgeOfOp_of_tick hd ht hlt⟩
        · exact ⟨_, waitEdgeOfOp_of_last_tick hd ht heq⟩
  · exact ⟨_, edge_reset hr⟩

/-- Settles O48: a state with the invariants has a next one, with the invariants again. -/
theorem blockNeverHalts : Obligations.BlockNeverHalts := by
  unfold Obligations.BlockNeverHalts
  intro n
  induction n with
  | zero => exact fun s h => ⟨s, rfl, h⟩
  | succ n ih =>
    intro s h
    obtain ⟨u, hu⟩ := h.edge_next
    have hstep := step_of_edge_next hu
    rw [steps_succ_of_step hstep]
    exact ih _ (stepKeepsInvariants s _ h hstep)

/-! ## Acceptance edges (R40) -/

/-- Settles O17: the acceptance of INIT, with the bytes of its frame computed. -/
theorem initAcceptanceBindsAndStartsFrame : Obligations.InitAcceptanceBindsAndStartsFrame := by
  unfold Obligations.InitAcceptanceBindsAndStartsFrame
  intro s h
  rw [exec_idle_starts rfl h (.inl rfl)]
  rfl

/-- An accepted frame request that writes neither `bound` nor `vol_cache`. -/
theorem exec_idle_sends (i : Instr) (o : FrameOperands) {s : State} (ho : operandsOf i = some o) (h : s.st = .idle)
    (hb : s.bound = true) (hw : acceptanceWrites i s.clearDone = s.clearDone) :
    exec i s = .next { s with buf := o.frame, idx := 0, opQ := i.op, st := .send, done := false } := by
  rw [exec_idle_starts ho h (.inr hb), hw]
  rfl

/-- The same for a frame with a 16-bit parameter, which is sent as quotient and remainder by 256 (R94). -/
theorem exec_idle_sends_parameter (i : Instr) (c : Byte) (p : Word16) {s : State}
    (ho : operandsOf i = some ⟨c, highByte p, lowByte p⟩) (h : s.st = .idle) (hb : s.bound = true)
    (hw : acceptanceWrites i s.clearDone = s.clearDone) :
    exec i s = .next { s with
      buf := buildFrame c (BitVec.ofNat 8 (p.toNat / 256)) (BitVec.ofNat 8 (p.toNat % 256))
      idx := 0, opQ := i.op, st := .send, done := false } := by
  rw [exec_idle_sends i _ ho h hb hw, FrameOperands.frame, highByte_eq_ofNat, lowByte_eq_ofNat]

/-- Settles O18: each request starts its frame; three of them have a 16-bit parameter, PLAYF two bytes. -/
theorem operandRequestsStartTheirFrame : Obligations.OperandRequestsStartTheirFrame := by
  unfold Obligations.OperandRequestsStartTheirFrame
  exact fun s h hb =>
    ⟨fun c p => exec_idle_sends_parameter (.frame c p) c p rfl h hb rfl,
      fun t => exec_idle_sends_parameter (.play t) 0x03 t rfl h hb rfl,
      fun d n => exec_idle_sends (.playf d n) (playfOperands d n) rfl h hb rfl,
      fun t => exec_idle_sends_parameter (.announce t) 0x13 t rfl h hb rfl⟩

/-- Settles O19: each request starts its frame, whose ten bytes are computed. -/
theorem parameterlessRequestsStartTheirFrame : Obligations.ParameterlessRequestsStartTheirFrame := by
  unfold Obligations.ParameterlessRequestsStartTheirFrame
  exact fun s h hb =>
    ⟨exec_idle_sends .pause pauseOperands rfl h hb rfl, exec_idle_sends .resume resumeOperands rfl h hb rfl,
      exec_idle_sends .stop stopOperands rfl h hb rfl, exec_idle_sends .sdready sdreadyOperands rfl h hb rfl⟩

/-- Settles O20: one value, the clamped volume, goes into `vol_cache` and into the frame. -/
theorem setvolCachesAndSendsClampedVolume : Obligations.SetvolCachesAndSendsClampedVolume := by
  unfold Obligations.SetvolCachesAndSendsClampedVolume
  intro v s h hb
  rw [exec_idle_starts rfl h (.inr hb)]
  rfl

/-! ## The edges in SEND and WAIT (R41 to R43) -/

theorem wellFormed_of_emitsFrame {i : Instr} (h : emitsFrame i = true) : i.wellFormed = true := by
  cases i with
  | reservedHigh => cases h
  | _ => rfl

/-- The op code alone tells a frame request's result: SDREADY's is 0x9 (R29, R43). -/
theorem resultOfOp_eq_okResult {i : Instr} (h : emitsFrame i = true) (s : State) :
    resultOfOp i.op s = okResult i s := by
  cases i with
  | isplaying => cases h
  | reservedB => cases h
  | reservedHigh => cases h
  | _ => rfl

/-- Settles O24: the three ways of a handshake before the last byte. -/
theorem sendEdgeOfFrameRequests : Obligations.SendEdgeOfFrameRequests := by
  unfold Obligations.SendEdgeOfFrameRequests
  intro i s hi h
  rw [exec_send (wellFormed_of_emitsFrame hi) h]
  refine ⟨fun hf => ?_, fun hf hy hlt => ?_, fun hf hy => ?_⟩
  · rw [sendEdge_of_fault (s := s.clearDone) hf]
    exact ⟨_, _, _, rfl⟩
  · rw [sendEdge_of_byte (s := s.clearDone) hf hy hlt]
    rfl
  · rw [sendEdge_of_stall (s := s.clearDone) hf hy]
    rfl

/-- The transfer of byte 9 hands over the end byte (R75). -/
theorem transferByte_of_last {s : State} (hi : s.idx = 9) :
    s.transferByte = { s with received := s.received ++ [s.buf.endByte] } := by
  rw [State.transferByte, hi]
  rfl

/-- The edge of byte 9 of a request that ends with it (R42). -/
theorem afterFrameOfOp_of_end {prm : Config.Params} {op : OpCode}
    (h : delayOfOp prm op = none ∨ delayOfOp prm op = some 0) (s : State) :
    afterFrameOfOp prm op s = completeFrame .ok (resultOfOp op s) s := by
  rcases h with h | h
  · simp only [afterFrameOfOp, h, resultOfOp_of_no_delay h]
  · simp only [afterFrameOfOp, h, beginWait_zero (n := 0) rfl, finishOfOp_eq]

/-- The edge of byte 9 of a request that waits (R42). -/
theorem afterFrameOfOp_of_wait {prm : Config.Params} {op : OpCode} {n : Word16} (h : delayOfOp prm op = some n)
    (hn : n ≠ 0) (s : State) : afterFrameOfOp prm op s = s.enterWait := by
  have hpos : n.toNat ≠ 0 := fun hz => hn (BitVec.eq_of_toNat_eq hz)
  simp only [afterFrameOfOp, h, beginWait_pos hpos]

/-- Settles O25: after byte 9 the request ends or waits, by the wait of its op code. -/
theorem lastByteCompletesOrWaits : Obligations.LastByteCompletesOrWaits := by
  unfold Obligations.LastByteCompletesOrWaits
  intro i s hi h h9 hf hy
  rw [exec_send (wellFormed_of_emitsFrame hi) h, sendEdge_of_last (s := s.clearDone) hf hy h9,
    transferByte_of_last (s := s.clearDone) h9]
  refine ⟨fun hend => ?_, fun n hd hn => ?_⟩
  · rw [afterFrameOfOp_of_end hend, ← resultOfOp_eq_okResult hi s]
    exact ⟨_, _, _, rfl⟩
  · rw [afterFrameOfOp_of_wait hd hn]
    rfl

/-- The two requests that wait, with the length of the wait and the result by op code (R42, R43). -/
theorem waiting_request {i : Instr} {prm : Config.Params} {n : Word16}
    (h : i = .init ∧ n = prm.initSettleUnits ∨ i = .sdready ∧ n = prm.queryWaitUnits) :
    emitsFrame i = true ∧ delayOfOp prm i.op = some n := by
  rcases h with ⟨rfl, rfl⟩ | ⟨rfl, rfl⟩ <;> exact ⟨rfl, rfl⟩

/-- Settles O26: without a tick, at a tick before the last, and at the last. -/
theorem waitEdgeCountsTicksAndFinishes : Obligations.WaitEdgeCountsTicksAndFinishes := by
  unfold Obligations.WaitEdgeCountsTicksAndFinishes
  intro i s n h hreq
  obtain ⟨hi, hd⟩ := waiting_request hreq
  rw [exec_wait (wellFormed_of_emitsFrame hi) h]
  refine ⟨fun ht => ?_, fun ht hc => ?_, fun ht hc => ?_⟩
  · rw [waitEdgeOfOp_of_no_tick (s := s.clearDone) ht]
    rfl
  · have hcnt : s.cnt + 1 = BitVec.ofNat 16 (s.cnt.toNat + 1) := by
      rw [BitVec.ofNat_add, BitVec.ofNat_toNat, BitVec.setWidth_eq]
      rfl
    rw [waitEdgeOfOp_of_tick (s := s.clearDone) hd ht hc, ← hcnt]
    rfl
  · rw [waitEdgeOfOp_of_last_tick (s := s.clearDone) hd ht hc, ← resultOfOp_eq_okResult hi s]
    exact ⟨_, _, _, rfl⟩

/-! ## The step runs the request presented or in progress -/

/-- Settles O29: the presented request is the decoded word on the ports. -/
theorem stepRunsThePresentedRequest : Obligations.StepRunsThePresentedRequest := by
  unfold Obligations.StepRunsThePresentedRequest
  rintro s i hr h hv rfl
  exact congrArg thenAdvance (edge_accept hr h hv)

/-- Settles O30: in SEND and in WAIT an edge and exec depend on the op code alone. -/
theorem stepContinuesTheRequestInProgress : Obligations.StepContinuesTheRequestInProgress := by
  unfold Obligations.StepContinuesTheRequestInProgress
  intro s i hr hne hw hop
  rcases hs : s.st with _ | _ | _
  · exact absurd hs hne
  · rw [step, edge_send hr hs, exec_send hw hs, hop]
  · rw [step, edge_wait hr hs, exec_wait hw hs, hop]

/-- Settles O33: an idle edge under either levels is `done <- 0`. -/
theorem idleEdgeChangesOnlyDone : Obligations.IdleEdgeChangesOnlyDone := by
  unfold Obligations.IdleEdgeChangesOnlyDone
  intro s hr h hv
  exact ⟨step_of_edge_next (edge_idle hr h hv), fun p hr' hv' =>
    step_withPort_of_edge (edge_idle hr h hv) (edge_idle (s := s.withPort p) hr' h hv')⟩

/-- The fields of a request word put together again are the word (R70). -/
theorem requestWord_fields (w : RequestWord) : requestWord (opField w) (cmdField w) (pField w) = w := by
  apply BitVec.eq_of_toNat_eq
  have hw := w.isLt
  rw [requestWord_toNat]
  simp only [opField, cmdField, pField, BitVec.extractLsb'_toNat, Nat.shiftRight_eq_div_pow]
  omega

theorem presented_presentRequest (w : RequestWord) (s : State) : presented (presentRequest w s) = decode w :=
  congrArg decode (requestWord_fields w)

/-- Only the number of a 28-bit word is read as a request, by the decoder of words (R74). -/
theorem decodeTableWord_eq_some {nbits w : Nat} {i : Instr} (h : decodeTableWord nbits w = some i) :
    decode (BitVec.ofNat 28 (w % 2 ^ nbits)) = i := by
  by_cases hlt : w % 2 ^ nbits < 2 ^ 28
  · rw [decodeTableWord, decodeNumber, if_pos hlt] at h
    exact Option.some.inj h
  · rw [decodeTableWord, decodeNumber, if_neg hlt] at h
    cases h

/-- Settles O45: the word is presented to an idle block with `rst` low, so the edge accepts it. -/
theorem presentedTableWordRuns : Obligations.PresentedTableWordRuns := by
  unfold Obligations.PresentedTableWordRuns
  intro s nbits w i h
  refine ⟨?_, rfl, rfl, rfl, rfl⟩
  have hpres : presented (s.withFetchWord nbits w) = i :=
    (presented_presentRequest _ s).trans (decodeTableWord_eq_some h)
  rw [step, edge_accept rfl rfl rfl, hpres]

/-! ## What a step writes -/

/-- Settles O34: each output is written as a function of the registers and `rst`. -/
theorem outputsAreFunctionsOfRegistersAndReset : Obligations.OutputsAreFunctionsOfRegistersAndReset := by
  unfold Obligations.OutputsAreFunctionsOfRegistersAndReset
  intro s
  refine ⟨by simp [reqReady], by simp [txValid], fun hv => if_pos hv, rfl, rfl, rfl, fun p hp => ?_⟩
  have hready : reqReady (s.withPort p) = reqReady s := by rw [reqReady, withPort_port, hp]; rfl
  have hvalid : txValid (s.withPort p) = txValid s := by rw [txValid, withPort_port, hp]; rfl
  simp [outputs, txData, hready, hvalid]

/-- The offered byte at an edge at which it is handed over (R33, R54, R173). -/
def handedOver (s : State) : List Byte :=
  if txValid s && (s.port.txReady && !s.port.txFault) then [frameByte s.buf s.idx] else []

/-- Of the edges the two that transfer a byte are those with a handshake. -/
theorem EdgeStep.received_eq {s u : State} (h : EdgeStep s u) : u.received = s.received ++ handedOver s := by
  cases h with
  | reset hr => simp [handedOver, txValid, hr]
  | idle _ hs => simp [handedOver, txValid, hs]
  | start _ hs => simp [handedOver, txValid, hs]
  | respond _ hs => simp [handedOver, txValid, hs]
  | fault _ _ hf => simp [handedOver, hf]
  | byte hr hs hf hy => simp [handedOver, txValid, hr, hs, hf, hy]
  | lastByte hr hs hf hy => simp [handedOver, txValid, hr, hs, hf, hy]
  | enterWait hr hs hf hy => simp [handedOver, txValid, hr, hs, hf, hy]
  | stall _ _ _ hy => simp [handedOver, hy]
  | noTick _ hs => simp [handedOver, txValid, hs]
  | tick _ hs => simp [handedOver, txValid, hs]
  | lastTick _ hs => simp [handedOver, txValid, hs]

/-- Settles O36. -/
theorem bytesMoveOnlyAtHandshakes : Obligations.BytesMoveOnlyAtHandshakes := by
  unfold Obligations.BytesMoveOnlyAtHandshakes
  intro s t h
  obtain ⟨u, hu, rfl⟩ := step_cases h
  exact (advance_received u).trans hu.received_eq

/-- Who writes `bound` and `vol_cache`: a reset, or an acceptance that starts a frame (R27, R28, R200). -/
theorem EdgeStep.bound_volCache {s u : State} (h : EdgeStep s u) :
    (s.port.rst = true ∧ u.bound = false ∧ u.volCache = 20) ∨
    s.port.rst = false ∧
      ((s.st = .idle ∧ s.port.reqValid = true ∧ (presented s = .init ∨ s.bound = true) ∧
          u.bound = (acceptanceWrites (presented s) s).bound ∧
          u.volCache = (acceptanceWrites (presented s) s).volCache) ∨
        (u.bound = s.bound ∧ u.volCache = s.volCache)) := by
  cases h with
  | reset hr => exact .inl ⟨hr, rfl, rfl⟩
  | start hr hs hv o _ hb =>
    refine .inr ⟨hr, .inl ⟨hs, hv, hb, ?_⟩⟩
    cases presented s <;> exact ⟨rfl, rfl⟩
  | _ hr => exact .inr ⟨hr, .inr ⟨rfl, rfl⟩⟩

/-- The step at which a frame request is accepted. -/
theorem step_starts {s : State} {i : Instr} {o : FrameOperands} (hr : s.port.rst = false) (hs : s.st = .idle)
    (hv : s.port.reqValid = true) (hp : presented s = i) (ho : operandsOf i = some o)
    (hb : i = .init ∨ s.bound = true) :
    step s = .next (advance (startFrame i.op o (acceptanceWrites i s.clearDone))) :=
  step_of_edge_next ((edge_accept hr hs hv).trans ((congrArg (exec · s) hp).trans (exec_idle_starts ho hs hb)))

/-- A step that resets the block. -/
theorem step_reset {s : State} (hr : s.port.rst = true) : step s = .next (advance (resetEdge s)) :=
  step_of_edge_next (edge_reset hr)

/-- Settles O37: reset and SETVOL's acceptance write, and by the cases of an edge nothing else does. -/
theorem volCacheWrittenOnlyBySetvol : Obligations.VolCacheWrittenOnlyBySetvol := by
  unfold Obligations.VolCacheWrittenOnlyBySetvol
  intro s t h
  refine ⟨fun hr => ?_, fun v hr hs hv hp hb => ?_, fun hr hne => ?_⟩
  · obtain rfl := Host.Outcome.next.inj ((step_reset hr).symm.trans h)
    exact advance_volCache _
  · have hstep := step_starts hr hs hv hp rfl (.inr hb)
    obtain rfl := Host.Outcome.next.inj (hstep.symm.trans h)
    exact advance_volCache _
  · obtain ⟨u, hu, rfl⟩ := step_cases h
    rw [advance_volCache] at hne
    rcases hu.bound_volCache with ⟨hr', -⟩ | ⟨-, ⟨hs, hv, hb, -, hvol⟩ | ⟨-, hvol⟩⟩
    · rw [hr] at hr'; cases hr'
    · by_cases hp : ∃ v, presented s = .setvol v
      · obtain ⟨v, hp⟩ := hp
        exact ⟨hs, hv, hb.resolve_left (by simp [hp]), v, hp⟩
      · exact absurd (hvol.trans (acceptanceWrites_volCache (not_exists.mp hp) s)) hne
    · exact absurd hvol hne

/-- Settles O38: reset and INIT's acceptance write, and by the cases of an edge nothing else does. -/
theorem boundSetByInitClearedByReset : Obligations.BoundSetByInitClearedByReset := by
  unfold Obligations.BoundSetByInitClearedByReset
  intro s t h
  obtain ⟨u, hu, rfl⟩ := step_cases h
  rw [advance_bound]
  refine ⟨fun h0 h1 => ?_, fun h1 h0 => ?_, fun hr hs hv hp => ?_, fun hr => ?_⟩
  · rcases hu.bound_volCache with ⟨-, hbound, -⟩ | ⟨hr, ⟨hs, hv, hb, -, -⟩ | ⟨hbound, -⟩⟩
    · rw [h1] at hbound; cases hbound
    · exact ⟨hr, hs, hv, hb.resolve_right (by simp [h0])⟩
    · rw [h0, h1] at hbound; cases hbound
  · rcases hu.bound_volCache with ⟨hr, -, -⟩ | ⟨-, ⟨-, -, -, hbound, -⟩ | ⟨hbound, -⟩⟩
    · exact hr
    · rw [acceptanceWrites_bound, h0, h1, ite_self] at hbound; cases hbound
    · rw [h0, h1] at hbound; cases hbound
  · have hstep := step_starts hr hs hv hp rfl (.inl rfl)
    rw [← advance_bound, Host.Outcome.next.inj (h.symm.trans hstep)]
    exact advance_bound _
  · rw [← advance_bound, Host.Outcome.next.inj (h.symm.trans (step_reset hr)), advance_bound, resetEdge_bound]

/-- `done` after an edge tells whether it completed a request: one presented or in progress is no more (R31). -/
theorem EdgeStep.done_iff {s u : State} (h : EdgeStep s u) :
    u.done = true ↔ s.port.rst = false ∧ u.st = .idle ∧ (s.st ≠ .idle ∨ s.port.reqValid = true) := by
  cases h with
  | reset hr => simp [hr]
  | idle _ hs hv => simp [hs, hv]
  | start => simp
  | respond hr _ hv => simp [hr, hv]
  | fault hr hs => simp [hr, hs]
  | byte _ hs => simp [hs]
  | lastByte hr hs => simp [hr, hs]
  | enterWait => simp
  | stall _ hs => simp [hs]
  | noTick _ hs => simp [hs]
  | tick _ hs => simp [hs]
  | lastTick hr hs => simp [hr, hs]

/-- Settles O39. -/
theorem doneMarksCompletionEdges : Obligations.DoneMarksCompletionEdges := by
  unfold Obligations.DoneMarksCompletionEdges
  intro s t h
  obtain ⟨u, hu, rfl⟩ := step_cases h
  rw [advance_done, advance_st]
  exact hu.done_iff

/-- The response registers hold their values over an edge that neither resets nor completes (R29). -/
theorem EdgeStep.response_eq {s u : State} (h : EdgeStep s u) (hr : s.port.rst = false) (hd : u.done = false) :
    u.respErr = s.respErr ∧ u.respBool = s.respBool := by
  cases h with
  | reset hr' => rw [hr] at hr'; cases hr'
  | respond => cases hd
  | fault => cases hd
  | lastByte => cases hd
  | lastTick => cases hd
  | start => simp
  | _ => exact ⟨rfl, rfl⟩

/-- Settles O40. -/
theorem responseHeldUntilNextCompletion : Obligations.ResponseHeldUntilNextCompletion := by
  unfold Obligations.ResponseHeldUntilNextCompletion
  intro s t h
  obtain ⟨u, hu, rfl⟩ := step_cases h
  rw [advance_done, advance_respErr, advance_respBool]
  refine ⟨fun hr hd => hu.response_eq hr hd, fun hr => ?_⟩
  rw [← advance_respErr, ← advance_respBool, Host.Outcome.next.inj (h.symm.trans (step_reset hr))]
  exact ⟨advance_respErr _, advance_respBool _⟩

/-! ## What a block in SEND or WAIT reads -/

theorem resultOfOp_of_ne {op : OpCode} (h : op ≠ 0x9) (s : State) : resultOfOp op s = false := by
  rw [resultOfOp, decide_eq_false h, Bool.false_and]

/-- Only SDREADY's result is read from an input, `rx_avail` (R43, R151). -/
theorem resultOfOp_withPort {op : OpCode} {p : Ports} {s : State} (h : op = 0x9 → p.rxAvail = s.port.rxAvail) :
    resultOfOp op (s.withPort p) = resultOfOp op s := by
  by_cases hop : op = 0x9
  · rw [resultOfOp, withPort_port, h hop, resultOfOp]
  · rw [resultOfOp_of_ne hop, resultOfOp_of_ne hop]

/-- The end of a wait reads no input but the level of SDREADY's result. -/
theorem finishOfOp_withPort {op : OpCode} {p : Ports} {s : State} (h : op = 0x9 → p.rxAvail = s.port.rxAvail) :
    finishOfOp op (s.withPort p) = (finishOfOp op s).withPort p := by
  rw [finishOfOp_eq, finishOfOp_eq, resultOfOp_withPort h]
  rfl

theorem delayOfOp_sdready (prm : Config.Params) : delayOfOp prm 0x9 = some prm.queryWaitUnits := rfl

/-- What follows the frame reads no input, but for SDREADY's result where the wait is of 0 units (R42). -/
theorem afterFrameOfOp_withPort {prm : Config.Params} {op : OpCode} {p : Ports} {s : State}
    (h : op = 0x9 → prm.queryWaitUnits = 0 → p.rxAvail = s.port.rxAvail) :
    afterFrameOfOp prm op (s.withPort p) = (afterFrameOfOp prm op s).withPort p := by
  unfold afterFrameOfOp
  rcases hd : delayOfOp prm op with _ | n
  · rfl
  · by_cases hn : n.toNat = 0
    · change beginWait n _ _ = (beginWait n _ _).withPort p
      rw [beginWait_zero hn, beginWait_zero hn, finishOfOp_withPort]
      rintro rfl
      obtain rfl := Option.some.inj ((delayOfOp_sdready prm).symm.trans hd)
      exact h rfl (BitVec.eq_of_toNat_eq hn)
    · change beginWait n _ _ = (beginWait n _ _).withPort p
      rw [beginWait_pos hn, beginWait_pos hn]
      rfl

/-- An edge in SEND reads the handshake, and more only where what follows the frame does (R41, R42). -/
theorem sendEdge_withPort {f : State → State} {p : Ports} {s : State} (hf : p.txFault = s.port.txFault)
    (hy : p.txReady = s.port.txReady)
    (hlast : s.idx = 9 → f (s.transferByte.withPort p) = (f s.transferByte).withPort p) :
    sendEdge f (s.withPort p) = (sendEdge f s).withPort p := by
  rcases sendEdge_cases f s with ⟨hf', he⟩ | ⟨hf', hy', hi, he⟩ | ⟨hf', hy', hi, he⟩ | ⟨hf', hy', he⟩
  · rw [he, sendEdge_of_fault (s := s.withPort p) (hf.trans hf')]
    rfl
  · rw [he, sendEdge_of_byte (s := s.withPort p) (hf.trans hf') (hy.trans hy') hi]
    rfl
  · rw [he, sendEdge_of_last (s := s.withPort p) (hf.trans hf') (hy.trans hy') hi]
    exact hlast hi
  · rw [he, sendEdge_of_stall (s := s.withPort p) (hf.trans hf') (hy.trans hy')]

/-- Settles O42: a reset edge reads no other input, and an edge in SEND the handshake and SDREADY's result. -/
theorem sendingBlockReadsOnlyTheHandshake : Obligations.SendingBlockReadsOnlyTheHandshake := by
  unfold Obligations.SendingBlockReadsOnlyTheHandshake
  intro s p h hrst hf hy havail
  rcases hr : s.port.rst with _ | _
  · refine step_withPort_of_edge (edge_send hr h) ((edge_send (s := s.withPort p) (hrst.trans hr) h).trans ?_)
    exact congrArg _ (sendEdge_withPort (s := s.clearDone) hf hy fun hi =>
      afterFrameOfOp_withPort fun hop hzero => havail hop hzero hi)
  · exact step_withPort_of_edge (edge_reset hr) (edge_reset (s := s.withPort p) (hrst.trans hr))

theorem waitEdge_past_end {n : Word16} {f : State → State} {s : State} (ht : s.port.unitTick = true)
    (hc : n.toNat < s.cnt.toNat + 1) : waitEdge n f s = .fault .waitPastEnd := by
  rw [waitEdge, if_pos ht, if_neg hc.not_gt, if_neg hc.ne']

/-- An edge in WAIT reads the tick, and more only where the end of the wait does (R43). -/
theorem thenAdvance_waitEdge_withPort {n : Word16} {f : State → State} {p : Ports} {s : State}
    (ht : p.unitTick = s.port.unitTick)
    (hlast : s.port.unitTick = true → s.cnt.toNat + 1 = n.toNat → f (s.withPort p) = (f s).withPort p) :
    thenAdvance (waitEdge n f (s.withPort p)) = thenAdvance (waitEdge n f s) := by
  rcases hs : s.port.unitTick with _ | _
  · rw [waitEdge_of_no_tick hs, waitEdge_of_no_tick (s := s.withPort p) (ht.trans hs)]
    exact congrArg Host.Outcome.next (advance_withPort p s)
  · rcases Nat.lt_trichotomy (s.cnt.toNat + 1) n.toNat with hc | hc | hc
    · rw [waitEdge_of_tick hs hc, waitEdge_of_tick (s := s.withPort p) (ht.trans hs) hc]
      exact congrArg Host.Outcome.next (advance_withPort p s.countTick)
    · rw [waitEdge_of_last_tick hs hc, waitEdge_of_last_tick (s := s.withPort p) (ht.trans hs) hc, hlast hs hc]
      exact congrArg Host.Outcome.next (advance_withPort p (f s))
    · rw [waitEdge_past_end hs hc, waitEdge_past_end (s := s.withPort p) (ht.trans hs) hc]

theorem thenAdvance_waitEdgeWithoutDelay_withPort {p : Ports} {s : State} (ht : p.unitTick = s.port.unitTick) :
    thenAdvance (waitEdgeWithoutDelay (s.withPort p)) = thenAdvance (waitEdgeWithoutDelay s) := by
  rw [waitEdgeWithoutDelay, waitEdgeWithoutDelay, withPort_port, ht]
  split
  · rfl
  · exact congrArg Host.Outcome.next (advance_withPort p s)

/-- By op code: beside the tick only `rx_avail` at the last tick of SDREADY's wait is read. -/
theorem thenAdvance_waitEdgeOfOp_withPort {prm : Config.Params} {op : OpCode} {p : Ports} {s : State}
    (ht : p.unitTick = s.port.unitTick)
    (havail : op = 0x9 → s.port.unitTick = true → s.cnt.toNat + 1 = prm.queryWaitUnits.toNat →
      p.rxAvail = s.port.rxAvail) :
    thenAdvance (waitEdgeOfOp prm op (s.withPort p)) = thenAdvance (waitEdgeOfOp prm op s) := by
  unfold waitEdgeOfOp
  rcases hd : delayOfOp prm op with _ | n
  · exact thenAdvance_waitEdgeWithoutDelay_withPort ht
  · refine thenAdvance_waitEdge_withPort ht fun hs hc => finishOfOp_withPort ?_
    rintro rfl
    obtain rfl := Option.some.inj ((delayOfOp_sdready prm).symm.trans hd)
    exact havail rfl hs hc

/-- Settles O43: a reset edge reads no other input, and an edge in WAIT the tick and SDREADY's result. -/
theorem waitingBlockReadsOnlyTheTick : Obligations.WaitingBlockReadsOnlyTheTick := by
  unfold Obligations.WaitingBlockReadsOnlyTheTick
  intro s p h hrst ht havail
  rcases hr : s.port.rst with _ | _
  · rw [step, step, edge_wait hr h, edge_wait (s := s.withPort p) (hrst.trans hr) h]
    exact thenAdvance_waitEdgeOfOp_withPort (s := s.clearDone) ht havail
  · exact step_withPort_of_edge (edge_reset hr) (edge_reset (s := s.withPort p) (hrst.trans hr))

/-! ## Runs that stay where they are (R212) -/

/-- The levels at which a block in SEND or in WAIT stalls. -/
def Hangs (ph : Phase) (p : Ports) : Prop :=
  (ph = .send ∧ p.calm = true ∧ p.txReady = false) ∨ (ph = .wait ∧ p.rst = false ∧ p.unitTick = false)

theorem Ports.calm_iff (p : Ports) : p.calm = true ↔ p.rst = false ∧ p.txFault = false := by
  simp [Ports.calm]

theorem step_of_hangs {s : State} (h : Hangs s.st s.port) : step s = .next (advance s.clearDone) := by
  rcases h with ⟨hs, hcalm, hy⟩ | ⟨hs, hr, ht⟩
  · obtain ⟨hr, hf⟩ := s.port.calm_iff.mp hcalm
    exact step_of_edge_next ((edge_send hr hs).trans (congrArg _ (sendEdge_of_stall (s := s.clearDone) hf hy)))
  · exact step_of_edge_next ((edge_wait hr hs).trans (waitEdgeOfOp_of_no_tick (s := s.clearDone) ht))

/-- The registers of the request in progress, and what the transport has of it, are the same in two states. -/
def SameProgress (s t : State) : Prop :=
  t.st = s.st ∧ t.opQ = s.opQ ∧ t.buf = s.buf ∧ t.idx = s.idx ∧ t.cnt = s.cnt ∧ t.received = s.received

theorem sameProgress_advance_clearDone (s : State) : SameProgress s (advance s.clearDone) := by
  simp [SameProgress]

theorem SameProgress.trans {s t u : State} (h : SameProgress s t) (h' : SameProgress t u) : SameProgress s u := by
  obtain ⟨hst, hop, hbuf, hidx, hcnt, hrec⟩ := h
  obtain ⟨hst', hop', hbuf', hidx', hcnt', hrec'⟩ := h'
  exact ⟨hst'.trans hst, hop'.trans hop, hbuf'.trans hbuf, hidx'.trans hidx, hcnt'.trans hcnt, hrec'.trans hrec⟩

/-- A block that stalls at each listed edge makes no progress over them and answers nothing. -/
theorem steps_of_hangs {ps : List Ports} {s : State} (henv : s.env = ps) (h : ∀ p ∈ s.port :: ps, Hangs s.st p) :
    ∃ t, steps (ps.length + 1) s = .next t ∧ SameProgress s t ∧ t.done = false := by
  induction ps generalizing s with
  | nil =>
    exact ⟨_, (steps_one s).trans (step_of_hangs (h _ List.mem_cons_self)), sameProgress_advance_clearDone s, by simp⟩
  | cons p ps ih =>
    have hstep := step_of_hangs (h _ List.mem_cons_self)
    have hnext := advance_of_env_cons (s := s.clearDone) henv
    rw [hnext] at hstep
    obtain ⟨t, ht, hsame, hd⟩ := ih (s := { s.clearDone with port := p, env := ps, edgeCount := s.edgeCount + 1 }) rfl
      fun q hq => h q (List.mem_cons_of_mem _ hq)
    exact ⟨t, (steps_succ_of_step hstep).trans ht, (hnext ▸ sameProgress_advance_clearDone s).trans hsame, hd⟩

/-- Settles O53: by induction over the listed edges, at each of which the block stalls. -/
theorem hangsAreKept : Obligations.HangsAreKept := by
  unfold Obligations.HangsAreKept
  intro s ps henv h
  have hhangs : ∀ p ∈ s.port :: ps, Hangs s.st p := by
    rcases h with ⟨hs, h⟩ | ⟨hs, h⟩
    · exact fun p hp => .inl ⟨hs, h p hp⟩
    · exact fun p hp => .inr ⟨hs, h p hp⟩
  obtain ⟨t, ht, ⟨hst, hop, hbuf, hidx, hcnt, hrec⟩, hd⟩ := steps_of_hangs henv hhangs
  exact ⟨t, ht, hst, hop, hbuf, hidx, hcnt, hrec, hd⟩

/-! ## Whole requests, from their acceptance to their completion -/

/-- What is fixed from the acceptance of a frame request to its completion: op code, frame, the volume acceptance left
in `vol_cache`, the bytes the transport had before, and the parameters. -/
structure Accepted where
  op     : OpCode
  frame  : Frame
  vol    : Byte
  before : List Byte
  params : Config.Params

/-- The accepted request is in progress in the phase `ph`, and the coming edges have the levels `ls`. -/
structure Accepted.Progress (r : Accepted) (ph : Phase) (ls : List Ports) (u : State) : Prop where
  underway : Underway r.op r.frame r.vol r.before u
  st       : u.st = ph
  done     : u.done = false
  params   : u.params = r.params
  coming   : u.port :: u.env = ls

/-- The request is in SEND and byte `k` of its frame is offered. -/
def Accepted.Sends (r : Accepted) (k : Nat) (ls : List Ports) (u : State) : Prop :=
  r.Progress .send ls u ∧ u.idx.val = k

/-- The request is in WAIT and `k` ticks have been counted. -/
def Accepted.Waits (r : Accepted) (k : Nat) (ls : List Ports) (u : State) : Prop :=
  r.Progress .wait ls u ∧ u.cnt.toNat = k

/-- The request has completed with OK and the result `b`, its frame handed over whole (R42, R43). -/
structure Accepted.EndsOk (r : Accepted) (b : Bool) (env : List Ports) (t : State) : Prop where
  st       : t.st = .idle
  done     : t.done = true
  respErr  : t.respErr = .ok
  respBool : t.respBool = b
  received : t.received = r.before ++ frameBytes r.frame
  bound    : t.bound = true
  volCache : t.volCache = r.vol
  env      : t.env = env

theorem advance_env (s : State) : (advance s).env = s.env.tail := by
  unfold advance
  split
  next h => rw [h]; rfl
  next h => rw [h]; rfl

/-- The advance brings the next listed levels to the ports. -/
theorem advance_coming {s : State} (h : s.env ≠ []) : (advance s).port :: (advance s).env = s.env := by
  obtain ⟨p, ps, hps⟩ := List.exists_cons_of_ne_nil h
  rw [advance_of_env_cons hps, hps]

/-- The steps after the first `m`. -/
theorem steps_add_of_steps {m n : Nat} {s u : State} (h : steps m s = .next u) : steps (m + n) s = steps n u := by
  induction m generalizing s with
  | zero =>
    obtain rfl := Host.Outcome.next.inj h
    rw [Nat.zero_add]
  | succ m ih =>
    rw [Nat.add_right_comm]
    rw [steps] at h ⊢
    rcases hs : step s with v | _ | _
    · rw [hs] at h
      exact ih h
    · rw [hs] at h; cases h
    · rw [hs] at h; cases h

/-- A predicate that each listed edge keeps, counting the edges that `count` tells, holds after all of them. -/
theorem steps_of_each_step {Q : Nat → List Ports → State → Prop} {ok : Ports → Prop} {count : Ports → Bool} {b : Nat}
    (hstep : ∀ p ls k u, ls ≠ [] → ok p → k + (if count p then 1 else 0) ≤ b → Q k (p :: ls) u →
      ∃ v, step u = .next v ∧ Q (k + if count p then 1 else 0) ls v)
    {ps ls : List Ports} {k : Nat} {u : State} (hne : ls ≠ []) (hok : ∀ p ∈ ps, ok p) (hb : k + ps.countP count ≤ b)
    (h : Q k (ps ++ ls) u) : ∃ v, steps ps.length u = .next v ∧ Q (k + ps.countP count) ls v := by
  induction ps generalizing k u with
  | nil => exact ⟨u, rfl, h⟩
  | cons p ps ih =>
    obtain ⟨hp, hps⟩ := List.forall_mem_cons.mp hok
    have hcount : k + (p :: ps).countP count = (k + if count p then 1 else 0) + ps.countP count := by
      rw [List.countP_cons]; omega
    rw [hcount] at hb ⊢
    obtain ⟨v, hv, hQ⟩ := hstep p (ps ++ ls) k u (by simp [hne]) hp (by omega) h
    obtain ⟨w, hw, hQ'⟩ := ih hps hb hQ
    exact ⟨w, (steps_succ_of_step hv).trans hw, hQ'⟩

section
variable {r : Accepted} {ph ph' : Phase} {p : Ports} {ls : List Ports} {u v : State} {k : Nat} {n : Word16}

theorem Accepted.Progress.port (h : r.Progress ph (p :: ls) u) : u.port = p := (List.cons.inj h.coming).1

theorem Accepted.Progress.env (h : r.Progress ph (p :: ls) u) : u.env = ls := (List.cons.inj h.coming).2

/-- An edge that does not complete leaves the request in progress and uses up the first of the coming levels. -/
theorem Accepted.Progress.next (h : r.Progress ph (p :: ls) u) (hne : ls ≠ []) (hr : p.rst = false)
    (he : edge u = .next v) (hd : v.done = false) (hst : v.st = ph') : r.Progress ph' ls (advance v) := by
  obtain ⟨hprm, henv, -⟩ := (edge_next he).keeps_environment
  have henv' : v.env = ls := henv.trans h.env
  refine ⟨?_, by simpa using hst, by simpa using hd, by simpa [hprm] using h.params, ?_⟩
  · rcases h.underway.next_cases (h.port ▸ hr) (step_of_edge_next he) with ⟨-, hu⟩ | ⟨hd', -⟩
    · exact hu
    · rw [advance_done, hd] at hd'; cases hd'
  · rw [advance_coming (henv' ▸ hne), henv']

theorem Accepted.Progress.edge_send (h : r.Progress .send (p :: ls) u) (hr : p.rst = false) :
    edge u = .next (sendEdge (afterFrameOfOp r.params r.op) u.clearDone) := by
  rw [Machine.edge_send (h.port ▸ hr) h.st, h.params, h.underway.opQ]

theorem Accepted.Progress.edge_wait (h : r.Progress .wait (p :: ls) u) (hr : p.rst = false) :
    edge u = waitEdgeOfOp r.params r.op u.clearDone := by
  rw [Machine.edge_wait (h.port ▸ hr) h.st, h.params, h.underway.opQ]

/-- The completion with OK of a request whose frame the transport has whole; the advance uses up one listed level. -/
theorem Accepted.endsOk_completeFrame (hrec : v.received = r.before ++ frameBytes r.frame) (hbound : v.bound = true)
    (hvol : v.volCache = r.vol) (henv : v.env = ls) {b : Bool} :
    r.EndsOk b ls.tail (advance (completeFrame .ok b v)) where
  st := by simp
  done := by simp
  respErr := by simp
  respBool := by simp
  received := by simpa using hrec
  bound := by simpa using hbound
  volCache := by simpa using hvol
  env := by rw [advance_env, completeFrame_env, henv]

/-- A calm edge in SEND before byte 9 is taken moves on by a byte if the transport is ready (R41). -/
theorem Accepted.Sends.step_next (h : r.Sends k (p :: ls) u) (hne : ls ≠ []) (hcalm : p.calm = true)
    (hk : k + (if p.txReady then 1 else 0) ≤ 9) :
    ∃ v, step u = .next v ∧ r.Sends (k + if p.txReady then 1 else 0) ls v := by
  obtain ⟨hprog, rfl⟩ := h
  obtain rfl := hprog.port
  obtain ⟨hr, hf⟩ := u.port.calm_iff.mp hcalm
  have he := hprog.edge_send hr
  rcases hy : u.port.txReady with _ | _
  · rw [sendEdge_of_stall (s := u.clearDone) hf hy] at he
    exact ⟨_, step_of_edge_next he, hprog.next hne hr he rfl hprog.st, by simp⟩
  · rw [hy] at hk
    have hi : u.idx.val < 9 := hk
    rw [sendEdge_of_byte (s := u.clearDone) hf hy hi] at he
    exact ⟨_, step_of_edge_next he, hprog.next hne hr he rfl hprog.st, by simpa using succ_val_of_lt hi⟩

/-- An edge in WAIT before the last tick counts the tick if there is one (R43). -/
theorem Accepted.Waits.step_next (h : r.Waits k (p :: ls) u) (hd : delayOfOp r.params r.op = some n) (hne : ls ≠ [])
    (hr : p.rst = false) (hk : k + (if p.unitTick then 1 else 0) < n.toNat) :
    ∃ v, step u = .next v ∧ r.Waits (k + if p.unitTick then 1 else 0) ls v := by
  obtain ⟨hprog, rfl⟩ := h
  obtain rfl := hprog.port
  have he := hprog.edge_wait hr
  rcases ht : u.port.unitTick with _ | _
  · rw [waitEdgeOfOp_of_no_tick (s := u.clearDone) ht] at he
    exact ⟨_, step_of_edge_next he, hprog.next hne hr he rfl hprog.st, by simp⟩
  · rw [ht] at hk
    rw [waitEdgeOfOp_of_tick (s := u.clearDone) hd ht hk] at he
    refine ⟨_, step_of_edge_next he, hprog.next hne hr he rfl hprog.st, ?_⟩
    rw [advance_cnt]
    exact countTick_cnt_toNat (s := u.clearDone) hk

/-- The edge of byte 9 of a request that ends with it completes the request with OK (R42). -/
theorem Accepted.Sends.step_last (h : r.Sends 9 (p :: ls) u) (hcalm : p.calm = true) (hy : p.txReady = true)
    (hd : delayOfOp r.params r.op = none ∨ delayOfOp r.params r.op = some 0) :
    ∃ t, step u = .next t ∧ r.EndsOk (decide (r.op = 0x9) && p.rxAvail) ls.tail t := by
  obtain ⟨hprog, hi⟩ := h
  obtain rfl := hprog.port
  obtain ⟨hr, hf⟩ := u.port.calm_iff.mp hcalm
  have hi : u.idx = 9 := Fin.ext hi
  have he := hprog.edge_send hr
  rw [sendEdge_of_last (s := u.clearDone) hf hy hi, afterFrameOfOp_of_end hd] at he
  exact ⟨_, step_of_edge_next he, endsOk_completeFrame (hprog.underway.received_lastByte hprog.st hi)
    hprog.underway.bound hprog.underway.volCache hprog.env⟩

/-- The edge of byte 9 of a request that waits begins the wait, no tick counted (R42). -/
theorem Accepted.Sends.step_enterWait (h : r.Sends 9 (p :: ls) u) (hne : ls ≠ []) (hcalm : p.calm = true)
    (hy : p.txReady = true) (hd : delayOfOp r.params r.op = some n) (hn : n ≠ 0) :
    ∃ v, step u = .next v ∧ r.Waits 0 ls v := by
  obtain ⟨hprog, hi⟩ := h
  obtain rfl := hprog.port
  obtain ⟨hr, hf⟩ := u.port.calm_iff.mp hcalm
  have he := hprog.edge_send hr
  rw [sendEdge_of_last (s := u.clearDone) hf hy (Fin.ext hi), afterFrameOfOp_of_wait hd hn] at he
  exact ⟨_, step_of_edge_next he, hprog.next hne hr he rfl rfl, by simp⟩

/-- The last tick completes the request with OK (R43). -/
theorem Accepted.Waits.step_last (h : r.Waits k (p :: ls) u) (hr : p.rst = false) (ht : p.unitTick = true)
    (hd : delayOfOp r.params r.op = some n) (hk : k + 1 = n.toNat) :
    ∃ t, step u = .next t ∧ r.EndsOk (decide (r.op = 0x9) && p.rxAvail) ls.tail t := by
  obtain ⟨hprog, rfl⟩ := h
  obtain rfl := hprog.port
  have he := hprog.edge_wait hr
  rw [waitEdgeOfOp_of_last_tick (s := u.clearDone) hd ht hk] at he
  exact ⟨_, step_of_edge_next he, endsOk_completeFrame (hprog.underway.received_of_wait hprog.st)
    hprog.underway.bound hprog.underway.volCache hprog.env⟩

/-- Calm edges with no more ready ones than there are bytes before byte 9 leave the request in SEND. -/
theorem Accepted.Sends.steps_next {ps : List Ports} (h : r.Sends 0 (ps ++ ls) u) (hne : ls ≠ [])
    (hcalm : ∀ p ∈ ps, p.calm = true) (hk : readyCount ps ≤ 9) :
    ∃ v, steps ps.length u = .next v ∧ r.Sends (readyCount ps) ls v := by
  have hrun := steps_of_each_step (Q := r.Sends) (ok := fun p => p.calm = true) (count := fun p => p.txReady) (b := 9)
    (fun _ _ _ _ hne hp hk h => h.step_next hne hp hk) hne hcalm ((Nat.zero_add _).trans_le hk) h
  rwa [Nat.zero_add] at hrun

/-- Edges with fewer ticks than the wait has units leave the request in WAIT. -/
theorem Accepted.Waits.steps_next {qs : List Ports} (h : r.Waits 0 (qs ++ ls) u)
    (hd : delayOfOp r.params r.op = some n) (hne : ls ≠ []) (hr : ∀ q ∈ qs, q.rst = false)
    (hk : tickCount qs < n.toNat) : ∃ v, steps qs.length u = .next v ∧ r.Waits (tickCount qs) ls v := by
  have hrun := steps_of_each_step (Q := r.Waits) (ok := fun q => q.rst = false) (count := fun q => q.unitTick)
    (b := n.toNat - 1) (fun _ _ _ _ hne hq hk h => h.step_next hd hne hq (by omega)) hne hr
    (by rw [Nat.zero_add]; exact Nat.le_sub_one_of_lt hk) h
  rwa [Nat.zero_add] at hrun

end

/-- An idle block is presented the request `i`, whose frame operands are `o`, and may start its frame (R40, R110). -/
structure OffersFrame (s : State) (i : Instr) (o : FrameOperands) : Prop where
  idle      : s.st = .idle
  startable : i = .init ∨ s.bound = true
  rst       : s.port.rst = false
  reqValid  : s.port.reqValid = true
  presented : presented s = i
  operands  : operandsOf i = some o

/-- What the acceptance of `i` in the state `s` fixes. -/
def acceptedFrom (s : State) (i : Instr) (o : FrameOperands) : Accepted :=
  { op := i.op, frame := o.frame, vol := (acceptanceWrites i s).volCache, before := s.received, params := s.params }

section
variable {s : State} {i : Instr} {o : FrameOperands} {ps qs ls : List Ports} {sent : Ports} {n : Word16}

theorem acceptedFrom_clearDone (s : State) (i : Instr) (o : FrameOperands) :
    acceptedFrom s.clearDone i o = acceptedFrom s i o := by
  cases i <;> rfl

/-- Acceptance puts the request in SEND with byte 0 offered (R40). -/
theorem OffersFrame.step_next (h : OffersFrame s i o) (henv : s.env = ls) (hne : ls ≠ []) :
    ∃ u, step s = .next u ∧ (acceptedFrom s i o).Sends 0 ls u := by
  rw [← acceptedFrom_clearDone]
  refine ⟨_, step_starts h.rst h.idle h.reqValid h.presented h.operands h.startable, ⟨?_, ?_, ?_, ?_, ?_⟩, ?_⟩
  · exact (underway_startFrame (s := s.clearDone) h.startable).after_advance
  · simp
  · simp
  · simp [acceptedFrom]
  · rw [advance_coming (by simpa [henv] using hne)]
    simpa using henv
  · simp

/-- After acceptance and calm edges, nine ready ones at the most, the request is in SEND. -/
theorem OffersFrame.steps_send (h : OffersFrame s i o) (henv : s.env = ps ++ ls) (hne : ls ≠ [])
    (hcalm : ∀ p ∈ ps, p.calm = true) (hk : readyCount ps ≤ 9) :
    ∃ u, steps (ps.length + 1) s = .next u ∧ (acceptedFrom s i o).Sends (readyCount ps) ls u := by
  obtain ⟨u, hu, hsends⟩ := h.step_next henv (by simp [hne])
  obtain ⟨v, hv, hsends⟩ := hsends.steps_next hne hcalm hk
  exact ⟨v, (steps_succ_of_step hu).trans hv, hsends⟩

/-- After the edge of byte 9, edges with fewer ticks than the wait has units leave the request in WAIT. -/
theorem OffersFrame.steps_wait (h : OffersFrame s i o) (henv : s.env = ps ++ sent :: (qs ++ ls)) (hne : ls ≠ [])
    (hcalm : ∀ p ∈ ps, p.calm = true) (hnine : readyCount ps = 9) (hsent : sent.calm = true)
    (hready : sent.txReady = true) (hd : delayOfOp s.params i.op = some n) (hn : n ≠ 0)
    (hr : ∀ q ∈ qs, q.rst = false) (hk : tickCount qs < n.toNat) :
    ∃ u, steps (ps.length + 2 + qs.length) s = .next u ∧ (acceptedFrom s i o).Waits (tickCount qs) ls u := by
  obtain ⟨u, hu, hsends⟩ := h.steps_send henv (List.cons_ne_nil _ _) hcalm hnine.le
  obtain ⟨v, hv, hwaits⟩ := (hnine ▸ hsends).step_enterWait (by simp [hne]) hsent hready hd hn
  obtain ⟨w, hw, hwaits⟩ := hwaits.steps_next hd hne hr hk
  exact ⟨w, (steps_add_of_steps ((steps_succ_of_steps hu).trans hv)).trans hw, hwaits⟩

/-- At every step up to the edge of byte 9 the request is in SEND and `done` is 0. -/
theorem OffersFrame.sending_before (h : OffersFrame s i o) (henv : s.env = ps ++ ls) (hne : ls ≠ [])
    (hcalm : ∀ p ∈ ps, p.calm = true) (hk : readyCount ps ≤ 9) {k : Nat} (hk1 : 1 ≤ k) (hkn : k ≤ ps.length + 1) :
    ∃ u, steps k s = .next u ∧ u.st = .send ∧ u.done = false := by
  obtain ⟨j, rfl⟩ := Nat.exists_eq_add_of_le' hk1
  have henv' : s.env = ps.take j ++ (ps.drop j ++ ls) := by
    rw [← List.append_assoc, List.take_append_drop, henv]
  obtain ⟨u, hu, hprog, -⟩ := h.steps_send henv' (by simp [hne]) (fun p hp => hcalm p (List.mem_of_mem_take hp))
    (((List.take_sublist j ps).countP_le).trans hk)
  rw [List.length_take_of_le (by omega)] at hu
  exact ⟨u, hu, hprog.st, hprog.done⟩

/-- At every step from the edge of byte 9 to the last tick the request is in WAIT and `done` is 0. -/
theorem OffersFrame.waiting_before (h : OffersFrame s i o) (henv : s.env = ps ++ sent :: (qs ++ ls)) (hne : ls ≠ [])
    (hcalm : ∀ p ∈ ps, p.calm = true) (hnine : readyCount ps = 9) (hsent : sent.calm = true)
    (hready : sent.txReady = true) (hd : delayOfOp s.params i.op = some n) (hn : n ≠ 0)
    (hr : ∀ q ∈ qs, q.rst = false) (hk : tickCount qs < n.toNat) {j : Nat} (hj : j ≤ qs.length) :
    ∃ u, steps (ps.length + 2 + j) s = .next u ∧ u.st = .wait ∧ u.done = false := by
  have henv' : s.env = ps ++ sent :: (qs.take j ++ (qs.drop j ++ ls)) := by
    rw [← List.append_assoc (qs.take j), List.take_append_drop, henv]
  obtain ⟨u, hu, hprog, -⟩ := h.steps_wait henv' (by simp [hne]) hcalm hnine hsent hready hd hn
    (fun q hq => hr q (List.mem_of_mem_take hq)) (((List.take_sublist j qs).countP_le).trans_lt hk)
  rw [List.length_take_of_le hj] at hu
  exact ⟨u, hu, hprog.st, hprog.done⟩

end

/-- A frame request that ends with its frame completes with OK at its tenth handshake (R42, R213). -/
theorem OffersFrame.completes_at_tenth_handshake {s : State} {i : Instr} {o : FrameOperands} {ps rest : List Ports}
    {last : Ports} (h : OffersFrame s i o) (henv : s.env = ps ++ last :: rest) (hcalm : ∀ p ∈ ps, p.calm = true)
    (hnine : readyCount ps = 9) (hlast : last.calm = true) (hready : last.txReady = true)
    (hd : delayOfOp s.params i.op = none ∨ delayOfOp s.params i.op = some 0) :
    ∃ t, steps (ps.length + 2) s = .next t ∧
      (acceptedFrom s i o).EndsOk (decide (i.op = 0x9) && last.rxAvail) rest.tail t := by
  obtain ⟨u, hu, hsends⟩ := h.steps_send henv (List.cons_ne_nil _ _) hcalm hnine.le
  obtain ⟨t, ht, hends⟩ := (hnine ▸ hsends).step_last hlast hready hd
  exact ⟨t, (steps_succ_of_steps hu).trans ht, hends⟩

/-- A frame request that waits completes with OK at the last tick of its wait (R43, R151). -/
theorem OffersFrame.completes_at_last_tick {s : State} {i : Instr} {o : FrameOperands} {ps qs rest : List Ports}
    {sent tick : Ports} {n : Word16} (h : OffersFrame s i o) (henv : s.env = ps ++ sent :: (qs ++ tick :: rest))
    (hcalm : ∀ p ∈ ps, p.calm = true) (hnine : readyCount ps = 9) (hsent : sent.calm = true)
    (hready : sent.txReady = true) (hd : delayOfOp s.params i.op = some n) (hn : n ≠ 0)
    (hr : ∀ q ∈ qs, q.rst = false) (hticks : tickCount qs + 1 = n.toNat) (htick : tick.rst = false)
    (ht : tick.unitTick = true) :
    ∃ t, steps (ps.length + qs.length + 3) s = .next t ∧
      (acceptedFrom s i o).EndsOk (decide (i.op = 0x9) && tick.rxAvail) rest.tail t := by
  obtain ⟨u, hu, hwaits⟩ := h.steps_wait henv (List.cons_ne_nil _ _) hcalm hnine hsent hready hd hn hr (by omega)
  obtain ⟨t, ht, hends⟩ := hwaits.step_last htick ht hd hticks
  rw [show ps.length + qs.length + 3 = ps.length + 2 + qs.length + 1 by omega]
  exact ⟨t, (steps_succ_of_steps hu).trans ht, hends⟩

/-- The request that a frame names, as it is presented. -/
theorem offersFrame_of_frameOf {s : State} {i : Instr} {f : Frame} (hs : s.st = .idle)
    (hb : i = .init ∨ s.bound = true) (hr : s.port.rst = false) (hv : s.port.reqValid = true)
    (hp : presented s = i) (hf : frameOf i = some f) : ∃ o, OffersFrame s i o ∧ o.frame = f := by
  obtain ⟨o, ho, rfl⟩ := Option.map_eq_some_iff.mp hf
  exact ⟨o, ⟨hs, hb, hr, hv, hp, ho⟩, rfl⟩

/-- Of the frame requests SDREADY alone has a result that is read from an input (R29, R43). -/
theorem result_eq_ite_sdready {i : Instr} {o : FrameOperands} (ho : operandsOf i = some o) (b : Bool) :
    (decide (i.op = 0x9) && b) = if i = .sdready then b else false := by
  cases i with
  | isplaying => cases ho
  | reservedB => cases ho
  | reservedHigh => cases ho
  | _ => rfl

/-- Only SETVOL writes `vol_cache` at its acceptance, and SETVOL does not wait (R28, R42). -/
theorem acceptedFrom_vol_of_delay {s : State} {i : Instr} {n : Word16} (hd : delayOfOp s.params i.op = some n)
    (o : FrameOperands) : (acceptedFrom s i o).vol = s.volCache := by
  refine acceptanceWrites_volCache ?_ s
  rintro v rfl
  cases hd

/-- Settles O50: acceptance, the stalls and bytes before the tenth handshake, and that handshake. -/
theorem frameRequestCompletesAtTenthHandshake : Obligations.FrameRequestCompletesAtTenthHandshake := by
  unfold Obligations.FrameRequestCompletesAtTenthHandshake
  intro s i f ps rest last hs hb hr hv hp hf hd henv hcalm hnine hlast hready
  obtain ⟨o, h, rfl⟩ := offersFrame_of_frameOf hs (.inr hb) hr hv hp hf
  obtain ⟨t, ht, hends⟩ := h.completes_at_tenth_handshake henv hcalm hnine hlast hready (.inl hd)
  have hresult : (decide (i.op = 0x9) && last.rxAvail) = false := by
    rw [result_eq_ite_sdready h.operands]
    split
    next hi => rw [hi] at hd; cases hd
    next => rfl
  refine ⟨t, ht, hends.st, hends.done, hends.respErr, hends.respBool.trans hresult, hends.received, hends.bound,
    hends.env, ?_, fun hne => hends.volCache.trans (acceptanceWrites_volCache hne s), fun k =>
    h.sending_before henv (List.cons_ne_nil _ _) hcalm hnine.le⟩
  rintro v rfl
  exact hends.volCache

/-- Settles O55: as for a request without a wait, with SDREADY's result read at the tenth handshake. -/
theorem zeroWaitRequestCompletesAtTenthHandshake : Obligations.ZeroWaitRequestCompletesAtTenthHandshake := by
  unfold Obligations.ZeroWaitRequestCompletesAtTenthHandshake
  intro s i f ps rest last hs hb hr hv hp hf hd henv hcalm hnine hlast hready
  obtain ⟨o, h, rfl⟩ := offersFrame_of_frameOf hs hb hr hv hp hf
  obtain ⟨t, ht, hends⟩ := h.completes_at_tenth_handshake henv hcalm hnine hlast hready (.inr hd)
  exact ⟨t, ht, hends.st, hends.done, hends.respErr, hends.respBool.trans (result_eq_ite_sdready h.operands _),
    hends.received, hends.bound, hends.volCache.trans (acceptedFrom_vol_of_delay hd o), hends.env, fun k =>
    h.sending_before henv (List.cons_ne_nil _ _) hcalm hnine.le⟩

/-- Settles O51: acceptance, the frame, the wait before its last tick, and that tick. -/
theorem waitingRequestCompletesAtLastTick : Obligations.WaitingRequestCompletesAtLastTick := by
  unfold Obligations.WaitingRequestCompletesAtLastTick
  intro s i f n ps qs rest sent tick hs hb hr hv hp hf hd hn henv hcalm hnine hsent hready hqs hticks htick hlast
  obtain ⟨o, h, rfl⟩ := offersFrame_of_frameOf hs hb hr hv hp hf
  obtain ⟨t, ht, hends⟩ :=
    h.completes_at_last_tick henv hcalm hnine hsent hready hd hn hqs hticks htick hlast
  refine ⟨t, ht, hends.st, hends.done, hends.respErr, hends.respBool.trans (result_eq_ite_sdready h.operands _),
    hends.received, hends.bound, hends.volCache.trans (acceptedFrom_vol_of_delay hd o), hends.env,
    fun k hk1 hkn => ?_⟩
  by_cases hk : k ≤ ps.length + 1
  · obtain ⟨u, hu, hst, hdone⟩ := h.sending_before henv (List.cons_ne_nil _ _) hcalm hnine.le hk1 hk
    exact ⟨u, hu, by simp [hst], hdone⟩
  · obtain ⟨j, rfl⟩ := Nat.exists_eq_add_of_le (show ps.length + 2 ≤ k by omega)
    obtain ⟨u, hu, hst, hdone⟩ := h.waiting_before henv (List.cons_ne_nil _ _) hcalm hnine hsent hready hd hn hqs
      (by omega) (show j ≤ qs.length by omega)
    exact ⟨u, hu, by simp [hst], hdone⟩

end Sys2Proof.Machine
end

section
/-! PROOFS. The bytes the transport has (20_memory.md): those of the frame in progress in order (R53 to R55), and the
prefix that a fault leaves (R173, R178). -/

namespace Sys2Proof.Machine

/-! ## The order of the bytes -/

theorem sentInOrder_of_idle {s : State} (h : s.st = .idle) : SentInOrder s := by
  simp [SentInOrder, h]

/-- The byte transferred in SEND is the one that follows those the transport has. -/
theorem SentInOrder.take_suffix_transferByte {s : State} (h : SentInOrder s) (hs : s.st = .send) :
    (frameBytes s.buf).take (s.idx.val + 1) <:+ s.transferByte.received := by
  obtain ⟨hsend, -⟩ := h
  obtain ⟨before, hrec⟩ := hsend hs
  exact ⟨before, by rw [frameBytes_take_succ, ← List.append_assoc, hrec, transferByte_received]⟩

/-- Every edge keeps the order: a frame starts with no byte of it sent, a handshake appends the next byte, and a
completion leaves no frame in progress. -/
theorem SentInOrder.edgeStep {s u : State} (h : SentInOrder s) (hu : EdgeStep s u) : SentInOrder u := by
  cases hu with
  | reset => exact sentInOrder_of_idle rfl
  | idle _ hs => exact sentInOrder_of_idle hs
  | start => simp [SentInOrder]
  | respond => exact sentInOrder_of_idle rfl
  | fault => exact sentInOrder_of_idle rfl
  | byte _ hs _ _ hi =>
    have hsent := SentInOrder.take_suffix_transferByte (s := s.clearDone) h hs
    refine ⟨fun _ => ?_, by simp [hs]⟩
    rwa [nextByte_idx, transferByte_idx, clearDone_idx, succ_val_of_lt hi]
  | lastByte => exact sentInOrder_of_idle rfl
  | enterWait _ hs _ _ hi =>
    have hsent := SentInOrder.take_suffix_transferByte (s := s.clearDone) h hs
    rw [clearDone_idx, hi] at hsent
    exact ⟨by simp, fun _ => hsent⟩
  | stall => exact h
  | noTick => exact h
  | tick => exact h
  | lastTick => exact sentInOrder_of_idle rfl

theorem SentInOrder.advance {s : State} (h : SentInOrder s) : SentInOrder (advance s) := by
  simpa [SentInOrder] using h

/-- Settles O49: each clause of R40 to R44 and R200 keeps the order, and the drive of the ports does. -/
theorem frameBytesArriveInOrder : Obligations.FrameBytesArriveInOrder := by
  unfold Obligations.FrameBytesArriveInOrder
  intro s t h ht
  obtain ⟨u, hu, rfl⟩ := step_cases ht
  exact (h.edgeStep hu).advance

/-! ## A transport fault -/

/-- The request has completed with TX_FAULT after `k` bytes of its frame (R173); `bound` and `vol_cache` are as
acceptance left them (R178). -/
structure Accepted.EndsFaulted (r : Accepted) (k : Nat) (t : State) : Prop where
  st       : t.st = .idle
  done     : t.done = true
  respErr  : t.respErr = .txFault
  respBool : t.respBool = false
  received : t.received = r.before ++ (frameBytes r.frame).take k
  bound    : t.bound = true
  volCache : t.volCache = r.vol

/-- A fault in SEND completes the request with the bytes taken so far, whether or not the transport is ready (R173). -/
theorem Accepted.Sends.step_fault {r : Accepted} {k : Nat} {p : Ports} {ls : List Ports} {u : State}
    (h : r.Sends k (p :: ls) u) (hr : p.rst = false) (hf : p.txFault = true) :
    ∃ t, step u = .next t ∧ r.EndsFaulted k t := by
  obtain ⟨hprog, rfl⟩ := h
  obtain rfl := hprog.port
  have he := hprog.edge_send hr
  rw [sendEdge_of_fault (s := u.clearDone) hf] at he
  exact ⟨_, step_of_edge_next he, {
    st := by simp
    done := by simp
    respErr := by simp
    respBool := by simp
    received := by simpa using hprog.underway.received_of_send hprog.st
    bound := by simpa using hprog.underway.bound
    volCache := by simpa using hprog.underway.volCache }⟩

/-- A frame request ends with TX_FAULT at the edge that reports a fault, after acceptance and calm edges (R173). -/
theorem OffersFrame.ends_at_fault {s : State} {i : Instr} {o : FrameOperands} {ps rest : List Ports} {bad : Ports}
    (h : OffersFrame s i o) (henv : s.env = ps ++ bad :: rest) (hcalm : ∀ p ∈ ps, p.calm = true)
    (hk : readyCount ps ≤ 9) (hr : bad.rst = false) (hf : bad.txFault = true) :
    ∃ t, steps (ps.length + 2) s = .next t ∧ (acceptedFrom s i o).EndsFaulted (readyCount ps) t := by
  obtain ⟨u, hu, hsends⟩ := h.steps_send henv (List.cons_ne_nil _ _) hcalm hk
  obtain ⟨t, ht, hends⟩ := hsends.step_fault hr hf
  exact ⟨t, (steps_succ_of_steps hu).trans ht, hends⟩

/-- Settles O52: acceptance, the stalls and bytes before the fault, and the fault. -/
theorem faultLeavesPrefixAndAcceptanceEffects : Obligations.FaultLeavesPrefixAndAcceptanceEffects := by
  unfold Obligations.FaultLeavesPrefixAndAcceptanceEffects
  intro s i f ps rest bad hs hb hr hv hp hf henv hcalm hk hbad hfault
  obtain ⟨o, h, rfl⟩ := offersFrame_of_frameOf hs hb hr hv hp hf
  obtain ⟨t, ht, hends⟩ := h.ends_at_fault henv hcalm hk hbad hfault
  refine ⟨t, ht, hends.st, hends.done, hends.respErr, hends.respBool, hends.received, hends.bound, ?_,
    fun hne => hends.volCache.trans (acceptanceWrites_volCache hne s)⟩
  rintro v rfl
  exact hends.volCache

end Sys2Proof.Machine
end

section
/-! PROOFS. The request word of 30_encoding.md: its decoder (R70 to R74), and the assembler with its pseudo-instructions
(R80, R81). -/

namespace Sys2Proof

/-! ## The request word -/

theorem cmdField_requestWord (op : OpCode) (cmd : Byte) (p : Word16) : cmdField (requestWord op cmd p) = cmd := by
  apply BitVec.eq_of_toNat_eq
  have := cmd.isLt
  have := p.isLt
  rw [cmdField, BitVec.extractLsb'_toNat, requestWord_toNat, Nat.shiftRight_eq_div_pow]
  omega

theorem pField_requestWord (op : OpCode) (cmd : Byte) (p : Word16) : pField (requestWord op cmd p) = p := by
  apply BitVec.eq_of_toNat_eq
  have := p.isLt
  rw [pField, BitVec.extractLsb'_toNat, requestWord_toNat, Nat.shiftRight_eq_div_pow]
  omega

/-- Decoding a word put together from its fields decodes the fields (R70). -/
theorem decode_requestWord (op : OpCode) (cmd : Byte) (p : Word16) :
    decode (requestWord op cmd p) = decodeFields op cmd p := by
  rw [decode, Laws.opField_requestWord, cmdField_requestWord, pField_requestWord]

/-- The op codes 0xC to 0xF are the second reserved row of the table (R73). -/
theorem decodeFields_reservedHigh {op : OpCode} (h : 12 ≤ op.toNat) (cmd : Byte) (p : Word16) :
    decodeFields op cmd p = .reservedHigh op := by
  unfold decodeFields
  split
  case h_13 => rfl
  all_goals omega

theorem highByte_append (d n : Byte) : highByte (d ++ n) = d :=
  BitVec.extractLsb'_append_eq_left

theorem lowByte_append (d n : Byte) : lowByte (d ++ n) = n :=
  BitVec.extractLsb'_append_eq_right

/-- The words R80 writes for requests with operands keep every operand bit in a field; those without are fixed words. -/
theorem decode_encode {i : Instr} (h : i.wellFormed = true) : decode (encode i) = i := by
  cases i with
  | frame c p => exact decode_requestWord _ _ _
  | setvol v => exact decode_requestWord _ _ _
  | play t => exact decode_requestWord _ _ _
  | playf d n =>
    have hfields : decode (encode (.playf d n)) = .playf (highByte (d ++ n)) (lowByte (d ++ n)) :=
      decode_requestWord _ _ _
    rw [hfields, highByte_append, lowByte_append]
  | announce t => exact decode_requestWord _ _ _
  | isplaying n => exact decode_requestWord _ _ _
  | reservedHigh op =>
    have hop : 12 ≤ op.toNat := of_decide_eq_true h
    exact (decode_requestWord _ _ _).trans (decodeFields_reservedHigh hop _ _)
  | init => decide
  | pause => decide
  | resume => decide
  | stop => decide
  | sdready => decide
  | reservedB => decide

/-- Settles O11, by the constructors of the request. -/
theorem decodeOfEncodeIsTheRequest : Obligations.DecodeOfEncodeIsTheRequest := by
  unfold Obligations.DecodeOfEncodeIsTheRequest
  exact fun i h => decode_encode h

theorem decodeNumber_of_lt {n : Nat} (h : n < 2 ^ 28) : decodeNumber n = .ok (decode (BitVec.ofNat 28 n)) := if_pos h

theorem decodeNumber_of_le {n : Nat} (h : 2 ^ 28 ≤ n) : decodeNumber n = .error .widerThanRequestWord :=
  if_neg (Nat.not_lt.mpr h)

/-- Settles O12: what the fields spell is well-formed under the op code they hold. -/
theorem everyRequestWordDecodes : Obligations.EveryRequestWordDecodes := by
  unfold Obligations.EveryRequestWordDecodes
  exact ⟨fun w => ⟨Machine.decodeFields_wellFormed _ _ _, Machine.decodeFields_op _ _ _⟩,
    fun n => ⟨decodeNumber_of_lt, decodeNumber_of_le⟩⟩

/-- Settles O13: the op code map is `decodeFields`, which drops the fields an op does not use. -/
theorem opCodeMapAndIgnoredFields : Obligations.OpCodeMapAndIgnoredFields := by
  unfold Obligations.OpCodeMapAndIgnoredFields
  intro cmd p
  simp only [decode_requestWord, ← highByte_eq_ofNat, ← lowByte_eq_ofNat]
  exact ⟨rfl, rfl, rfl, rfl, rfl, rfl, rfl, rfl, rfl, rfl, rfl, rfl, fun op h => decodeFields_reservedHigh h cmd p⟩

/-- Settles O14. -/
theorem wordsOfTheSpecDecode : Obligations.WordsOfTheSpecDecode := by
  unfold Obligations.WordsOfTheSpecDecode
  decide

/-! ## The assembler -/

theorem asmByte_of_le {n : Nat} (h : n ≤ 255) : asmByte n = some (BitVec.ofNat 8 n) := if_pos h

theorem asmByte_of_lt {n : Nat} (h : 255 < n) : asmByte n = none := if_neg (Nat.not_le.mpr h)

theorem asmByte_isSome (n : Nat) : (asmByte n).isSome = decide (n ≤ 255) := by
  unfold asmByte
  split <;> simp [*]

theorem asmWord_isSome (n : Nat) : (asmWord n).isSome = decide (n ≤ 65535) := by
  unfold asmWord
  split <;> simp [*]

/-- The byte an operand assembles to has the value written. -/
theorem toNat_of_asmByte {n : Nat} {b : Byte} (h : asmByte n = some b) : b.toNat = n := by
  simp only [asmByte, Option.ite_none_right_eq_some, Option.some.injEq] at h
  obtain ⟨hn, rfl⟩ := h
  rw [BitVec.toNat_ofNat]
  omega

/-- The 16-bit value an operand assembles to is the one written. -/
theorem toNat_of_asmWord {n : Nat} {p : Word16} (h : asmWord n = some p) : p.toNat = n := by
  simp only [asmWord, Option.ite_none_right_eq_some, Option.some.injEq] at h
  obtain ⟨hn, rfl⟩ := h
  rw [BitVec.toNat_ofNat]
  omega

theorem toNat_byte_append (d n : Byte) : (d ++ n).toNat = d.toNat * 0x100 + n.toNat := by
  rw [BitVec.toNat_append, ← Nat.shiftLeft_add_eq_or_of_lt n.isLt, Nat.shiftLeft_eq]

/-- A byte operand before operands that fit independently of it: both checks have to pass. -/
theorem isSome_asmByte_bind {α : Type} {n : Nat} {f : Byte → Option α} {fits : Bool}
    (h : ∀ b, (f b).isSome = fits) : ((asmByte n).bind f).isSome = (decide (n ≤ 255) && fits) := by
  rw [← asmByte_isSome]
  cases asmByte n with
  | none => rfl
  | some b => exact h b

/-- FRAME2 is its expansion to FRAME where its two parameter operands are bytes (R81). -/
theorem request_frame2 {h l : Nat} (hh : h ≤ 255) (hl : l ≤ 255) (c : Nat) :
    (Asm.frame2 c h l).request = (Asm.frame c (h * 256 + l)).request := by
  simp only [Asm.request, asmByte_of_le hh, asmByte_of_le hl, Option.bind_some]

/-- FRAME2 is refused where one of its two parameter operands is no byte (log 12). -/
theorem request_frame2_of_not_bytes {h l : Nat} (hhl : ¬(h ≤ 255 ∧ l ≤ 255)) (c : Nat) :
    (Asm.frame2 c h l).request = none := by
  by_cases hh : h ≤ 255
  · have hl : 255 < l := Nat.not_le.mp fun hl => hhl ⟨hh, hl⟩
    simp only [Asm.request, asmByte_of_lt hl, Option.bind_none, Option.bind_fun_none]
  · simp only [Asm.request, asmByte_of_lt (Nat.not_le.mp hh), Option.bind_none]

theorem request_frame_isSome (c p : Nat) :
    (Asm.frame c p).request.isSome = (decide (c ≤ 255) && decide (p ≤ 65535)) :=
  isSome_asmByte_bind fun _ => Option.isSome_map.trans (asmWord_isSome p)

theorem request_frame2_isSome (c h l : Nat) :
    (Asm.frame2 c h l).request.isSome = (Asm.frame2 c h l).wellFormed := by
  by_cases hhl : h ≤ 255 ∧ l ≤ 255
  · obtain ⟨hh, hl⟩ := hhl
    have hp : h * 256 + l ≤ 65535 := by omega
    rw [request_frame2 hh hl, request_frame_isSome]
    simp [Asm.wellFormed, hh, hl, hp]
  · rw [request_frame2_of_not_bytes hhl]
    simpa [Asm.wellFormed] using fun _ hh => Nat.not_le.mp fun hl => hhl ⟨hh, hl⟩

/-- A source line names a request exactly when every operand fits its field (R80). -/
theorem request_isSome (a : Asm) : a.request.isSome = a.wellFormed := by
  have hword (mk : Word16 → Instr) (n : Nat) : ((asmWord n).map mk).isSome = decide (n ≤ 65535) :=
    Option.isSome_map.trans (asmWord_isSome n)
  cases a with
  | frame c p => exact request_frame_isSome c p
  | setvol v => exact hword _ v
  | play t => exact hword _ t
  | playf d n => exact isSome_asmByte_bind fun _ => Option.isSome_map.trans (asmByte_isSome n)
  | announce t => exact hword _ t
  | isplaying n => exact hword _ n
  | frame2 c h l => exact request_frame2_isSome c h l
  | init | pause | resume | stop | sdready | query => rfl

theorem assemble_frame_toNat {c p : Nat} {w : RequestWord} (h : assemble (.frame c p) = some w) :
    w.toNat = c * 0x10000 + p := by
  simp only [assemble, Asm.request, Option.map_eq_some_iff, Option.bind_eq_some_iff] at h
  obtain ⟨_, ⟨b, hb, q, hq, rfl⟩, rfl⟩ := h
  rw [encode, requestWord_toNat, toNat_of_asmByte hb, toNat_of_asmWord hq]
  simp

theorem assemble_playf_toNat {d n : Nat} {w : RequestWord} (h : assemble (.playf d n) = some w) :
    w.toNat = 0x4000000 + d * 0x100 + n := by
  simp only [assemble, Asm.request, Option.map_eq_some_iff, Option.bind_eq_some_iff] at h
  obtain ⟨_, ⟨b, hb, q, hq, rfl⟩, rfl⟩ := h
  rw [encode, requestWord_toNat, toNat_byte_append, toNat_of_asmByte hb, toNat_of_asmByte hq]
  simp [Nat.add_assoc]

/-- The word of a source line with one 16-bit operand, for the request `mk` that it names (R80). -/
theorem assemble_word_operand_toNat (op : OpCode) (mk : Word16 → Instr) {a : Asm} {n : Nat} {w : RequestWord}
    (hmk : ∀ p, encode (mk p) = requestWord op 0x00 p) (ha : a.request = (asmWord n).map mk)
    (h : assemble a = some w) : w.toNat = op.toNat * 0x1000000 + n := by
  simp only [assemble, ha, Option.map_map, Option.map_eq_some_iff, Function.comp_apply, hmk] at h
  obtain ⟨p, hp, rfl⟩ := h
  rw [requestWord_toNat, toNat_of_asmWord hp]
  simp

/-- Settles O15: the operands are checked one by one, and the word is put together from the fields. -/
theorem assemblerGivesTheWordOrRefuses : Obligations.AssemblerGivesTheWordOrRefuses := by
  unfold Obligations.AssemblerGivesTheWordOrRefuses
  exact ⟨fun a => Option.isSome_map.trans (request_isSome a),
    fun _ _ _ => assemble_frame_toNat,
    rfl,
    fun _ _ => assemble_word_operand_toNat 0x2 .setvol (fun _ => rfl) rfl,
    fun _ _ => assemble_word_operand_toNat 0x3 .play (fun _ => rfl) rfl,
    fun _ _ _ => assemble_playf_toNat,
    fun _ _ => assemble_word_operand_toNat 0x5 .announce (fun _ => rfl) rfl,
    rfl, rfl, rfl, rfl,
    fun _ _ => assemble_word_operand_toNat 0xA .isplaying (fun _ => rfl) rfl⟩

/-- Settles O16: each pseudo-instruction names the request of its expansion. -/
theorem pseudoInstructionsExpand : Obligations.PseudoInstructionsExpand := by
  unfold Obligations.PseudoInstructionsExpand
  exact ⟨fun c h l hh hl => congrArg (Option.map encode) (request_frame2 hh hl c), rfl⟩

end Sys2Proof
end

section
/-! PROOFS. The frames of 30_encoding.md: the frame operands (R79), the frame column of the opcode table (R76, R77), and
the check of a receiver (R82). -/

namespace Sys2Proof.Machine

/-! ## Frame operands -/

/-- Settles O8: the table of R79 with the bytes of a parameter as quotient and remainder. -/
theorem frameOperandTable : Obligations.FrameOperandTable := by
  unfold Obligations.FrameOperandTable
  simp only [← highByte_eq_ofNat, ← lowByte_eq_ofNat]
  exact ⟨fun _ _ => rfl, rfl, fun _ => rfl, fun _ => rfl, fun _ _ => rfl, fun _ => rfl, rfl, rfl, rfl, rfl,
    fun _ => rfl, rfl, fun _ => rfl⟩

/-- Every request with a frame but FRAME has the command byte of its operation (R77). -/
theorem operationOfCommand_of_operands {i : Instr} {o : FrameOperands} (ho : operandsOf i = some o)
    (hop : i.op ≠ 0x0) : operationOfCommand o.cmd = some i.op := by
  cases i with
  | frame => exact absurd rfl hop
  | isplaying => cases ho
  | reservedB => cases ho
  | reservedHigh => cases ho
  | _ => obtain rfl := Option.some.inj ho; rfl

/-- The request `i`, with its frame operands, whose operation a command byte names. -/
theorem exists_request_of_command {i : Instr} {o : FrameOperands} {c : Byte} {op : OpCode}
    (ho : operandsOf i = some o) (hi : i.op ≠ 0x0) (hc : c.toNat = o.cmd.toNat) (hop : some i.op = some op) :
    op ≠ 0x0 ∧ ∃ (i : Instr) (o : FrameOperands), i.op = op ∧ operandsOf i = some o ∧ o.cmd = c := by
  obtain rfl := Option.some.inj hop
  exact ⟨hi, i, o, rfl, ho, (BitVec.eq_of_toNat_eq hc).symm⟩

/-- Settles O10: by the requests in one direction, by the command bytes that name an operation in the other. -/
theorem commandByteNamesItsOperation : Obligations.CommandByteNamesItsOperation := by
  unfold Obligations.CommandByteNamesItsOperation
  refine ⟨fun i o _ ho hop => operationOfCommand_of_operands ho hop, fun c op h => ?_⟩
  unfold operationOfCommand at h
  split at h
  next hc => exact exists_request_of_command (i := .init) rfl (by decide) hc h
  next hc => exact exists_request_of_command (i := .setvol 0) rfl (by decide) hc h
  next hc => exact exists_request_of_command (i := .play 0) rfl (by decide) hc h
  next hc => exact exists_request_of_command (i := .playf 0 0) rfl (by decide) hc h
  next hc => exact exists_request_of_command (i := .announce 0) rfl (by decide) hc h
  next hc => exact exists_request_of_command (i := .pause) rfl (by decide) hc h
  next hc => exact exists_request_of_command (i := .resume) rfl (by decide) hc h
  next hc => exact exists_request_of_command (i := .stop) rfl (by decide) hc h
  next hc => exact exists_request_of_command (i := .sdready) rfl (by decide) hc h
  next => cases h

/-! ## The frame column of the opcode table -/

/-- The bits two frames have in common are those of their bytes (R76). -/
theorem frameView_and (f g : Frame) : frameView f &&& frameView g =
    frameView ⟨f.startByte &&& g.startByte, f.version &&& g.version, f.length &&& g.length, f.command &&& g.command,
      f.feedback &&& g.feedback, f.paramHigh &&& g.paramHigh, f.paramLow &&& g.paramLow,
      f.checksumHigh &&& g.checksumHigh, f.checksumLow &&& g.checksumLow, f.endByte &&& g.endByte⟩ := by
  simp only [frameView, ← BitVec.and_append]

/-- The mask of a row whose low byte and checksum are free, with the masks of the command and of the high byte. -/
def maskFrame (cmdMask highMask : Byte) : Frame :=
  ⟨0xFF, 0xFF, 0xFF, cmdMask, 0xFF, highMask, 0x00, 0x00, 0x00, 0xFF⟩

/-- A row whose frames have free bytes: low byte and checksum, and what the two masks leave free (R76). -/
def maskedRow (op : OpCode) (cmd cmdMask highMask : Byte) : FrameRow :=
  ⟨op, frameView ⟨startByte, versionByte, lengthByte, cmd, feedbackByte, 0x00, 0x00, 0x00, 0x00, endByte⟩,
    frameView (maskFrame cmdMask highMask)⟩

/-- A row with one frame, the frame of a command without a parameter (R76). -/
def exactRow (op : OpCode) (cmd : Byte) : FrameRow := ⟨op, frameView (buildFrame cmd 0x00 0x00), BitVec.allOnes 80⟩

/-- A built frame lies under a row that holds its command and its high byte where the row's masks do. -/
theorem maskedRow_admits {op : OpCode} {o : FrameOperands} {rowCmd cmdMask highMask : Byte}
    (hcmd : o.cmd &&& cmdMask = rowCmd) (hhigh : o.h &&& highMask = 0x00) :
    (maskedRow op rowCmd cmdMask highMask).admits o.frame = true := by
  have hfixed (b : Byte) : b &&& 0xFF = b := BitVec.and_allOnes
  have hfree (b : Byte) : b &&& 0x00 = 0x00 := BitVec.and_zero
  simp only [FrameRow.admits, maskedRow, maskFrame, FrameOperands.frame, buildFrame, frameView_and, hcmd, hhigh,
    hfixed, hfree, decide_true]

theorem exactRow_admits (op : OpCode) (cmd : Byte) :
    (exactRow op cmd).admits (buildFrame cmd 0x00 0x00) = true :=
  decide_eq_true BitVec.and_allOnes

/-- The table has one row for an op code (R76). -/
theorem frameRow_eq_of_op {r r' : FrameRow} (h : r ∈ frameRows) (h' : r' ∈ frameRows) (hop : r.op = r'.op) : r = r' :=
  List.inj_on_of_nodup_map (f := FrameRow.op) (by decide) h h' hop

/-- Every request with a frame has a row of its op code that admits the frame (R76, R77, R79). -/
theorem exists_frameRow_admits {i : Instr} {o : FrameOperands} (ho : operandsOf i = some o) :
    ∃ r ∈ frameRows, r.op = i.op ∧ r.admits o.frame = true := by
  cases i with
  | isplaying => cases ho
  | reservedB => cases ho
  | reservedHigh => cases ho
  | init | pause | resume | stop | sdready =>
    obtain rfl := Option.some.inj ho
    exact ⟨exactRow _ _, by decide, rfl, exactRow_admits _ _⟩
  | frame =>
    obtain rfl := Option.some.inj ho
    exact ⟨maskedRow 0x0 0x00 0x00 0x00, by decide, rfl, maskedRow_admits BitVec.and_zero BitVec.and_zero⟩
  | setvol =>
    obtain rfl := Option.some.inj ho
    exact ⟨maskedRow 0x2 0x06 0xFF 0xFF, by decide, rfl, maskedRow_admits BitVec.and_allOnes BitVec.and_allOnes⟩
  | play =>
    obtain rfl := Option.some.inj ho
    exact ⟨maskedRow 0x3 0x03 0xFF 0x00, by decide, rfl, maskedRow_admits BitVec.and_allOnes BitVec.and_zero⟩
  | playf =>
    obtain rfl := Option.some.inj ho
    exact ⟨maskedRow 0x4 0x0F 0xFF 0x00, by decide, rfl, maskedRow_admits BitVec.and_allOnes BitVec.and_zero⟩
  | announce =>
    obtain rfl := Option.some.inj ho
    exact ⟨maskedRow 0x5 0x13 0xFF 0x00, by decide, rfl, maskedRow_admits BitVec.and_allOnes BitVec.and_zero⟩

/-- Settles O9: an op code has one row. -/
theorem framesMatchTheirTableRow : Obligations.FramesMatchTheirTableRow := by
  unfold Obligations.FramesMatchTheirTableRow
  intro i f row _ hf hrow hop
  obtain ⟨o, ho, rfl⟩ := Option.map_eq_some_iff.mp hf
  obtain ⟨r, hr, hrop, hadmits⟩ := exists_frameRow_admits ho
  rw [frameRow_eq_of_op hrow hr (hop.trans hrop.symm)]
  exact hadmits

/-! ## The receiver's check -/

/-- The checksum law fixes the two checksum bytes (R90, R93). -/
theorem checksumLaw_iff (cmd h l ch cl : Byte) :
    (sumBytes cmd h l + ch.toNat * 256 + cl.toNat) % 65536 = 0 ↔
      ch = highByte (checksum cmd h l) ∧ cl = lowByte (checksum cmd h l) := by
  have := sumBytes_eq cmd h l
  have := cmd.isLt
  have := h.isLt
  have := l.isLt
  have := ch.isLt
  have := cl.isLt
  rw [← BitVec.toNat_inj, ← BitVec.toNat_inj, highByte_toNat, lowByte_toNat, checksum_toNat]
  omega

/-- The receiver's check passes on exactly the built frames: the five fixed bytes are those of BuildFrame, and the law
fixes the checksum (R82, R92). -/
theorem wellFormedFrame_iff (g : Frame) :
    wellFormedFrame g = true ↔ g = buildFrame g.command g.paramHigh g.paramLow := by
  obtain ⟨start, version, length, cmd, feedback, h, l, ch, cl, last⟩ := g
  simp only [wellFormedFrame, Bool.and_eq_true, decide_eq_true_eq, buildFrame, Frame.mk.injEq, true_and]
  constructor
  · rintro ⟨rfl, rfl, rfl, rfl, rfl, hlaw⟩
    obtain ⟨hch, hcl⟩ := (checksumLaw_iff cmd h l ch cl).mp hlaw
    exact ⟨rfl, rfl, rfl, rfl, hch, hcl, rfl⟩
  · rintro ⟨rfl, rfl, rfl, rfl, hch, hcl, rfl⟩
    exact ⟨rfl, rfl, rfl, rfl, rfl, (checksumLaw_iff cmd h l ch cl).mpr ⟨hch, hcl⟩⟩

theorem frameOfBytes_eq_some_iff {bytes : List Byte} {g : Frame} :
    frameOfBytes bytes = some g ↔ bytes = frameBytes g := by
  constructor
  · intro h
    unfold frameOfBytes at h
    split at h
    · cases h; rfl
    · cases h
  · rintro rfl
    rfl

/-- A receiver takes a frame from exactly its ten bytes, if they pass its check (R82). -/
theorem receiveFrame_eq_some_iff {bytes : List Byte} {g : Frame} :
    receiveFrame bytes = some g ↔ bytes = frameBytes g ∧ wellFormedFrame g = true := by
  rw [← frameOfBytes_eq_some_iff, receiveFrame]
  cases frameOfBytes bytes with
  | none => simp
  | some f =>
    simp only [Option.ite_none_right_eq_some, Option.some.injEq]
    exact ⟨fun ⟨hf, hfg⟩ => ⟨hfg, hfg ▸ hf⟩, fun ⟨hfg, hg⟩ => ⟨hfg ▸ hg, hfg⟩⟩

/-- Settles O5: on ten bytes by the check itself, on a list of bytes by what makes it a frame. -/
theorem receiverAcceptsExactlyBuiltFrames : Obligations.ReceiverAcceptsExactlyBuiltFrames := by
  unfold Obligations.ReceiverAcceptsExactlyBuiltFrames
  exact ⟨wellFormedFrame_iff, fun bytes g => by rw [receiveFrame_eq_some_iff, wellFormedFrame_iff]⟩

/-- A receiver takes the bytes of a built frame as that frame (R82). -/
theorem receiveFrame_buildFrame (cmd h l : Byte) :
    receiveFrame (frameBytes (buildFrame cmd h l)) = some (buildFrame cmd h l) :=
  receiveFrame_eq_some_iff.mpr ⟨rfl, (wellFormedFrame_iff _).mpr rfl⟩

/-- Settles O6: every frame of a request is a built frame, and that of SETVOL is built from the clamped volume. -/
theorem emittedFramesPassTheReceiver : Obligations.EmittedFramesPassTheReceiver := by
  unfold Obligations.EmittedFramesPassTheReceiver
  intro i f hf
  obtain ⟨o, ho, rfl⟩ := Option.map_eq_some_iff.mp hf
  refine ⟨receiveFrame_buildFrame _ _ _, ?_⟩
  rintro v rfl
  obtain rfl := Option.some.inj ho
  exact ⟨rfl, rfl, (clampVol_toNat v).trans_le (Nat.min_le_right _ _)⟩

end Sys2Proof.Machine
end

section
/-! PROOFS. The frame codec (40_frame_codec.md): the checksum and its ranges (R90, R91), the ten bytes of BuildFrame
(R92), the checksum law (R93) and the two entry points (R94). -/

namespace Sys2Proof.Machine

/-! ## The checksum (R90, R91) -/

/-- The three variable bytes are at most 0xFF each (R91). -/
theorem sumBytes_mem_range (cmd h l : Byte) : 0x105 ≤ sumBytes cmd h l ∧ sumBytes cmd h l ≤ 0x402 := by
  have := sumBytes_eq cmd h l
  have := cmd.isLt
  have := h.isLt
  have := l.isLt
  omega

theorem checksum_mem_range (cmd h l : Byte) :
    0xFBFE ≤ (checksum cmd h l).toNat ∧ (checksum cmd h l).toNat ≤ 0xFEFB := by
  have := sumBytes_mem_range cmd h l
  rw [checksum_toNat]
  omega

theorem checksum_toNat_short (cmd h l : Byte) :
    (checksum cmd h l).toNat = 0xFEFB - (cmd.toNat + h.toNat + l.toNat) := by
  rw [checksum_toNat, sumBytes_eq]
  omega

/-- The range of the checksum leaves its high byte four values (R91). -/
theorem highByte_checksum_mem (cmd h l : Byte) :
    highByte (checksum cmd h l) ∈ ([0xFB, 0xFC, 0xFD, 0xFE] : List Byte) := by
  have := checksum_mem_range cmd h l
  have := highByte_toNat (checksum cmd h l)
  simp only [List.mem_cons, List.not_mem_nil, or_false, ← BitVec.toNat_inj, BitVec.reduceToNat]
  omega

/-- Settles O1: the sum lies below 65536, so its negation is an exact difference, and the ranges follow. -/
theorem checksumIsNegatedSixByteSum : Obligations.ChecksumIsNegatedSixByteSum := by
  unfold Obligations.ChecksumIsNegatedSixByteSum
  intro cmd h l
  obtain ⟨hsum, hsum'⟩ := sumBytes_mem_range cmd h l
  obtain ⟨hk, hk'⟩ := checksum_mem_range cmd h l
  have hnegated : (checksum cmd h l).toNat = (65536 - sumBytes cmd h l) % 65536 := BitVec.toNat_ofNat _ _
  exact ⟨hnegated, highByte_toNat _, lowByte_toNat _, hsum, hsum', checksum_toNat cmd h l, hk, hk',
    highByte_checksum_mem cmd h l, checksum_toNat_short cmd h l⟩

/-! ## BuildFrame (R92, R93) -/

/-- `f[i]` is the byte at place `i` in transmission order (R53, R75). -/
theorem frameBytes_getElem?_val (f : Frame) (i : Fin 10) : (frameBytes f)[i.val]? = some (frameByte f i) := by
  match i with
  | ⟨n, hn⟩ => interval_cases n <;> rfl

/-- Settles O2: the bytes are the fields of the built frame, the checksum's as quotient and remainder. -/
theorem builtFrameHasTheTenBytes : Obligations.BuiltFrameHasTheTenBytes := by
  unfold Obligations.BuiltFrameHasTheTenBytes
  intro cmd h l
  rw [← highByte_eq_ofNat, ← lowByte_eq_ofNat]
  exact ⟨rfl, frameBytes_getElem?_val _⟩

/-- Settles O3: the checksum bytes of a built frame are those that the law fixes. -/
theorem builtFramesObeyChecksumLaw : Obligations.BuiltFramesObeyChecksumLaw := by
  unfold Obligations.BuiltFramesObeyChecksumLaw
  exact fun cmd h l => (checksumLaw_iff cmd h l _ _).mpr ⟨rfl, rfl⟩

/-! ## The two entry points (R94) -/

/-- `h * 256 + l` is the parameter whose bytes are `h` and `l`. -/
theorem ofNat_mul_add_eq_append (h l : Byte) : BitVec.ofNat 16 (h.toNat * 256 + l.toNat) = h ++ l := by
  rw [← toNat_byte_append, BitVec.ofNat_toNat, BitVec.setWidth_eq]

theorem buildFrame16_append (cmd h l : Byte) : buildFrame16 cmd (h ++ l) = buildFrame cmd h l := by
  rw [buildFrame16, highByte_append, lowByte_append]

/-- Settles O4: splitting a parameter into its bytes and joining two bytes to a parameter are inverse. -/
theorem parameterSplitsIntoHighAndLow : Obligations.ParameterSplitsIntoHighAndLow := by
  unfold Obligations.ParameterSplitsIntoHighAndLow
  refine ⟨fun cmd p => ?_, fun cmd h l => ?_⟩
  · rw [buildFrame16, highByte_eq_ofNat, lowByte_eq_ofNat]
  · rw [ofNat_mul_add_eq_append, buildFrame16_append]

end Sys2Proof.Machine
end

section
/-! PROOFS. The command framer (41_commands.md): the volume clamp (R119), and the playback commands as FRAME with their
command byte and parameter (R120). -/

namespace Sys2Proof.Machine

/-! ## The volume clamp (R119) -/

/-- Settles O7: on each side of 30 the minimum is one of its two arguments. -/
theorem volumeClampIsMinimumWithThirty : Obligations.VolumeClampIsMinimumWithThirty := by
  unfold Obligations.VolumeClampIsMinimumWithThirty
  refine fun v => ⟨clampVol_toNat v, fun h => ?_, fun h => BitVec.eq_of_toNat_eq ?_⟩
  · rw [clampVol_toNat, Nat.min_eq_left h]
  · rw [clampVol_toNat, Nat.min_eq_right (Nat.le_of_succ_le h)]
    rfl

/-! ## The playback commands (R110, R113 to R118, R120) -/

/-- FRAME can be given any frame operands (R81). -/
theorem operandsOf_frame_append (o : FrameOperands) : operandsOf (.frame o.cmd (o.h ++ o.l)) = some o := by
  rw [operandsOf, frameOperands, highByte_append, lowByte_append]

/-- Acceptance writes `bound` for INIT and `vol_cache` for SETVOL, and nothing before the frame for the others. -/
theorem acceptanceWrites_eq_self {i : Instr} (hinit : i.op ≠ 0x1) (hsetvol : i.op ≠ 0x2) (s : State) :
    acceptanceWrites i s = s := by
  cases i with
  | init => exact absurd rfl hinit
  | setvol => exact absurd rfl hsetvol
  | _ => rfl

theorem delayOfOp_eq_none {op : OpCode} (hinit : op ≠ 0x1) (hsdready : op ≠ 0x9) (prm : Config.Params) :
    delayOfOp prm op = none := by
  unfold delayOfOp
  split
  next h => exact absurd (BitVec.eq_of_toNat_eq h) hinit
  next h => exact absurd (BitVec.eq_of_toNat_eq h) hsdready
  next => rfl

/-- An edge in SEND of a request without a wait does not depend on the request (R42). -/
theorem exec_send_of_no_delay {i : Instr} {s : State} (hw : i.wellFormed = true) (h : s.st = .send)
    (hd : delayOfOp s.params i.op = none) : exec i s = .next (sendEdge (completeFrame .ok false) s.clearDone) := by
  rw [exec_send hw h, afterFrameOfOp, hd]

/-- A frame request other than INIT and SETVOL is accepted as FRAME with its operands but for `op_q`: both run one
SendCommand (R110). -/
theorem exec_idle_eq_frame {i : Instr} {o : FrameOperands} {s : State} (ho : operandsOf i = some o) (h : s.st = .idle)
    (hinit : i.op ≠ 0x1) (hsetvol : i.op ≠ 0x2) :
    ∃ (t : State) (op : OpCode), exec i s = .next t ∧
      exec (.frame o.cmd (o.h ++ o.l)) s = .next { t with opQ := op } := by
  have hframe := operandsOf_frame_append o
  by_cases hb : s.bound = true
  · exact ⟨_, _, exec_idle_sends i o ho h hb (acceptanceWrites_eq_self hinit hsetvol _),
      exec_idle_sends _ o hframe h hb rfl⟩
  · have hb : s.bound = false := by simpa using hb
    have hi : i ≠ .init := fun hi => hinit (hi ▸ rfl)
    exact ⟨_, s.opQ, exec_idle_not_init ho h hi hb, exec_idle_not_init hframe h nofun hb⟩

/-- Settles O28: the command and FRAME are accepted alike, and neither waits after its frame. -/
theorem playbackCommandsEqualTheirFrame : Obligations.PlaybackCommandsEqualTheirFrame := by
  unfold Obligations.PlaybackCommandsEqualTheirFrame
  intro i o s hw ho hop hst
  have hinit : i.op ≠ 0x1 := ne_of_mem_of_not_mem hop (by decide)
  have hsetvol : i.op ≠ 0x2 := ne_of_mem_of_not_mem hop (by decide)
  have hsdready : i.op ≠ 0x9 := ne_of_mem_of_not_mem hop (by decide)
  rw [ofNat_mul_add_eq_append]
  cases h : s.st with
  | idle => exact exec_idle_eq_frame ho h hinit hsetvol
  | send =>
    have hd : delayOfOp s.params i.op = none := delayOfOp_eq_none hinit hsdready _
    exact ⟨_, _, exec_send_of_no_delay hw h hd, exec_send_of_no_delay rfl h rfl⟩
  | wait => exact absurd h hst

end Sys2Proof.Machine
end

section
/-! PROOFS. Errors (60_exceptions.md): the numbers of the response codes (R170), the requests that complete with ILLEGAL
or NOT_INIT at their acceptance edge (R174, R175), and the cause of every completion's code. -/

namespace Sys2Proof.Machine

/-! ## The response codes (R170) -/

/-- Two codes at the port are the same number only if they are the same code. -/
theorem RespErr.code_inj {e e' : RespErr} : e.code = e'.code ↔ e = e' := by
  cases e <;> cases e' <;> decide

theorem RespErr.code_toNat_le (e : RespErr) : e.code.toNat ≤ 4 := by
  cases e <;> decide

/-- Settles O35: each number is the code of one constructor, and the codes differ. -/
theorem responseCodeNumbers : Obligations.ResponseCodeNumbers := by
  unfold Obligations.ResponseCodeNumbers
  exact fun s =>
    ⟨RespErr.code_inj (e' := .ok), RespErr.code_inj (e' := .illegal), RespErr.code_inj (e' := .notInit),
      RespErr.code_inj (e' := .badLine), RespErr.code_inj (e' := .txFault), s.respErr.code_toNat_le⟩

/-! ## Errors at the acceptance edge (R174, R175) -/

/-- A request that responds at its acceptance edge writes the response registers and `done` alone (R40 steps 1 to 3). -/
theorem exec_idle_response {i : Instr} {s : State} (h : s.st = .idle) (hi : RespondsAtOnce s.bound i) :
    exec i s = .next { s with
      respErr := (responseAtOnce s.params s.port.lineIn i).1
      respBool := (responseAtOnce s.params s.port.lineIn i).2
      done := true } := by
  rw [exec_idle_responds h hi, complete_clearDone_of_idle h]

/-- Settles O22: a reserved op has no frame, and its response is ILLEGAL. -/
theorem reservedOpsCompleteIllegal : Obligations.ReservedOpsCompleteIllegal := by
  unfold Obligations.ReservedOpsCompleteIllegal
  exact fun s h => ⟨exec_idle_response h (.inl rfl), fun op => exec_idle_response h (.inl rfl)⟩

/-- Settles O23: a frame request that is not INIT fails the bound test. -/
theorem unboundRequestsCompleteNotInit : Obligations.UnboundRequestsCompleteNotInit := by
  unfold Obligations.UnboundRequestsCompleteNotInit
  intro i s hframe hinit h hb
  obtain ⟨o, ho⟩ := Option.isSome_iff_exists.mp hframe
  rw [exec_idle_response h (.inr ⟨hinit, hb⟩), responseAtOnce_of_operands ho]

/-! ## The causes of the codes (R170) -/

/-- What an edge of the request `i` from the state `s` must meet to complete with a code (R170, R173 to R177). -/
def HasCause (i : Instr) (s : State) : RespErr → Prop
  | .ok => True
  | .illegal => 0xB ≤ i.op.toNat ∧ s.st = .idle
  | .notInit => emitsFrame i = true ∧ i ≠ .init ∧ s.st = .idle ∧ s.bound = false
  | .badLine => s.st = .idle ∧ ∃ n, i = .isplaying n ∧ s.params.numLines ≤ n.toNat
  | .txFault => s.st = .send ∧ s.port.txFault = true

/-- The code of a response at acceptance has its cause: one case for each of R174, R175 and R176. -/
theorem responseAtOnce_hasCause {i : Instr} {s : State} (hw : i.wellFormed = true) (h : s.st = .idle)
    (hi : RespondsAtOnce s.bound i) : HasCause i s (responseAtOnce s.params s.port.lineIn i).1 := by
  rcases ho : operandsOf i with _ | o
  · cases i with
    | isplaying n =>
      by_cases hn : n.toNat < s.params.numLines
      · simp [responseAtOnce, namesLine, hn, HasCause]
      · simp [responseAtOnce, namesLine, hn, HasCause, h, Nat.not_lt.mp hn]
    | reservedB => exact ⟨Nat.le_refl _, h⟩
    | reservedHigh op =>
      have hop : 12 ≤ op.toNat := of_decide_eq_true hw
      exact ⟨Nat.le_of_succ_le hop, h⟩
    | _ => cases ho
  · obtain ⟨hinit, hb⟩ := hi.resolve_left (by simp [ho])
    rw [responseAtOnce_of_operands ho]
    exact ⟨by simp [emitsFrame, ho], hinit, h, hb⟩

theorem responseAtOnce_bool_of_error {prm : Config.Params} {lines : Nat} {i : Instr}
    (h : (responseAtOnce prm lines i).1 ≠ .ok) : (responseAtOnce prm lines i).2 = false := by
  cases i with
  | isplaying n =>
    rcases hn : namesLine prm n with _ | _
    · simp [responseAtOnce, hn]
    · simp [responseAtOnce, hn] at h
  | _ => rfl

/-- Everything an edge that completes a request can be: a response at acceptance (R40 steps 1 to 3), a transport fault
(R41), or an end with OK (R42, R43). -/
theorem exec_completion_cases {i : Instr} {s t : State} (hw : i.wellFormed = true) (ht : exec i s = .next t)
    (hd : t.done = true) :
    (s.st = .idle ∧ RespondsAtOnce s.bound i ∧ t.respErr = (responseAtOnce s.params s.port.lineIn i).1 ∧
      t.respBool = (responseAtOnce s.params s.port.lineIn i).2) ∨
    (s.st = .send ∧ s.port.txFault = true ∧ t.respErr = .txFault ∧ t.respBool = false) ∨
    t.respErr = .ok := by
  cases h : s.st with
  | idle =>
    rcases starts_or_respondsAtOnce s.bound i with ⟨o, ho, hb⟩ | hi
    · obtain rfl := Host.Outcome.next.inj ((exec_idle_starts ho h hb).symm.trans ht)
      simp at hd
    · obtain rfl := Host.Outcome.next.inj ((exec_idle_responds h hi).symm.trans ht)
      exact .inl ⟨rfl, hi, rfl, rfl⟩
  | send =>
    obtain rfl := Host.Outcome.next.inj ((exec_send hw h).symm.trans ht)
    rcases sendEdge_cases (afterFrameOfOp s.params i.op) s.clearDone with
      ⟨hf, e⟩ | ⟨-, -, -, e⟩ | ⟨-, -, -, e⟩ | ⟨-, -, e⟩ <;> rw [e] at hd ⊢
    · exact .inr (.inl ⟨rfl, hf, rfl, rfl⟩)
    · simp at hd
    · rcases afterFrameOfOp_cases s.params i.op s.clearDone.transferByte with ⟨-, e'⟩ | ⟨n, -, -, e'⟩ <;>
        rw [e'] at hd ⊢
      · exact .inr (.inr rfl)
      · simp at hd
    · simp at hd
  | wait =>
    rw [exec_wait hw h] at ht
    rcases waitEdgeOfOp_next ht with ⟨-, rfl⟩ | ⟨n, -, -, ⟨-, rfl⟩ | ⟨-, rfl⟩⟩
    · simp at hd
    · simp at hd
    · exact .inr (.inr rfl)

theorem exec_completion_hasCause {i : Instr} {s t : State} (hw : i.wellFormed = true) (ht : exec i s = .next t)
    (hd : t.done = true) : HasCause i s t.respErr ∧ (t.respErr ≠ .ok → t.respBool = false) := by
  rcases exec_completion_cases hw ht hd with ⟨h, hi, he, hb⟩ | ⟨h, hf, he, hb⟩ | he
  · rw [he, hb]
    exact ⟨responseAtOnce_hasCause hw h hi, responseAtOnce_bool_of_error⟩
  · rw [he, hb]
    exact ⟨⟨h, hf⟩, fun _ => rfl⟩
  · rw [he]
    exact ⟨trivial, fun hne => absurd rfl hne⟩

/-- Settles O27: the cause of the completion's code, read off for each code. -/
theorem completionCodesHaveTheirCauses : Obligations.CompletionCodesHaveTheirCauses := by
  unfold Obligations.CompletionCodesHaveTheirCauses
  intro i s t hw ht hd
  obtain ⟨hcause, hbool⟩ := exec_completion_hasCause hw ht hd
  have hcode {e : RespErr} (he : t.respErr = e) : HasCause i s e := he ▸ hcause
  exact ⟨hcode, hcode, hcode, hcode, hbool⟩

end Sys2Proof.Machine
end

section
/-! PROOFS. Reset (70_reset_and_hazards.md): both handshakes are closed while `rst` is high, and the edge loads the reset
column. -/

namespace Sys2Proof.Machine

theorem reqReady_reset {s : State} (hr : s.port.rst = true) : reqReady s = false := by
  simp [reqReady, hr]

theorem txValid_reset {s : State} (hr : s.port.rst = true) : txValid s = false := by
  simp [txValid, hr]

/-- Settles O31: the values loaded into `op_q` and `buf` are the free ones of this edge. -/
theorem resetEdgeLoadsResetValues : Obligations.ResetEdgeLoadsResetValues := by
  unfold Obligations.ResetEdgeLoadsResetValues
  intro s hr
  exact ⟨reqReady_reset hr, txValid_reset hr, Config.freeOpQ s.edgeCount, Config.freeBuf s.edgeCount, step_reset hr⟩

end Sys2Proof.Machine
end
